-- ==== Sys2Proof/Word.lean ====
section
/-! DEFINITION. The widths of the machine: the 8-bit byte of every data register and of every access, and the 16-bit
word of the program counter and of CPU addresses (10_state.md R30 to R32, 20_memory.md R100, R101). -/

namespace Sys2Proof

/-- An 8-bit byte: A, X, Y, SP, and every access of every address space (R30, R31, R101). -/
abbrev Byte := BitVec 8

/-- A 16-bit word: PC and every CPU-space address (R32, R100). -/
abbrev Word := BitVec 16

end Sys2Proof
end

