-- ==== Sys2Proof/Syntax.lean ====
section
/-! DEFINITION. The instructions as terms: one constructor for each of the 256 rows of spec/opcode_table.json
(30_encoding.md R172). A constructor holds its row's operand, already assembled (R162 to R166): an immediate byte, a
zero-page byte, a 16-bit address or pointer, or a signed branch displacement. A row that shares its mnemonic and mode
with another carries its opcode in its name (`nop1A`, `jam02`, `anc0B`, `sbcEB`). -/

namespace Sys2Proof

/-- The thirteen addressing modes of R161. -/
inductive Mode
  | imp | acc | imm | zp | zpx | zpy | rel | abs | abx | aby | ind | izx | izy
  deriving DecidableEq, Repr

/-- The operand of a memory mode: what `FetchAddress` is applied to (40_addressing_modes.md R200, R204 to R210). -/
inductive MemOperand
  /-- zero page (R204) -/
  | zp (z : Byte)
  /-- zero page,X (R205) -/
  | zpx (z : Byte)
  /-- zero page,Y (R206) -/
  | zpy (z : Byte)
  /-- absolute (R207) -/
  | abs (a : Word)
  /-- absolute,X (R208) -/
  | abx (a : Word)
  /-- absolute,Y (R208) -/
  | aby (a : Word)
  /-- (zero page,X) (R209) -/
  | izx (z : Byte)
  /-- (zero page),Y (R210) -/
  | izy (z : Byte)
  deriving DecidableEq, Repr

/-- The operand of a form that has a value: what `FetchValue` is applied to (R214). -/
inductive ValueOperand
  /-- accumulator (R202) -/
  | acc
  /-- immediate (R203) -/
  | imm (v : Byte)
  /-- a memory mode -/
  | mem (m : MemOperand)
  deriving DecidableEq, Repr

/-- The operand of an instruction: none (R201), a value form, a branch displacement (R211) or a jump pointer (R212). -/
inductive Operand
  | imp
  | value (o : ValueOperand)
  | rel (d : Int)
  | ind (p : Word)
  deriving DecidableEq, Repr

/-- The 76 mnemonics of the opcode table. -/
inductive Mnemonic
  | adc | ahx | alr | anc | and | arr | asl | axs | bcc | bcs | beq | bit
  | bmi | bne | bpl | brk | bvc | bvs | clc | cld | cli | clv | cmp | cpx
  | cpy | dcp | dec | dex | dey | eor | inc | inx | iny | isc | jam | jmp
  | jsr | las | lax | lda | ldx | ldy | lsr | lxa | nop | ora | pha | php
  | pla | plp | rla | rol | ror | rra | rti | rts | sax | sbc | sec | sed
  | sei | shx | shy | slo | sre | sta | stx | sty | tas | tax | tay | tsx
  | txa | txs | tya | xaa
  deriving DecidableEq, Repr

/-- The status column of R172: official, unofficial, or one of the two kinds of rows that raise Fault(F1). -/
inductive Status
  | official | unofficial | jam | unstable
  deriving DecidableEq, Repr

/-- One row of the opcode map R172, less its rule number and its length, which is a function of the mode (R161, R168). -/
structure Row where
  opcode : Byte
  mnemonic : Mnemonic
  mode : Mode
  baseCycles : Nat
  pageCross : Bool
  status : Status
  deriving DecidableEq, Repr

/-- The instructions: one constructor a row of spec/opcode_table.json, in the table's order, first the rows that have
operand bytes and then those that have none (Lean's compiled code cannot number a constructor with fields above 244). -/
inductive Instr
  /-- 0x01 `ORA ($nn,X)` (R274) -/
  | oraIzx (z : Byte)
  /-- 0x03 `SLO ($nn,X)` (R381) -/
  | sloIzx (z : Byte)
  /-- 0x04 `NOP $nn` (R394) -/
  | nop04 (z : Byte)
  /-- 0x05 `ORA $nn` (R274) -/
  | oraZp (z : Byte)
  /-- 0x06 `ASL $nn` (R287) -/
  | aslZp (z : Byte)
  /-- 0x07 `SLO $nn` (R381) -/
  | sloZp (z : Byte)
  /-- 0x09 `ORA #$nn` (R274) -/
  | oraImm (v : Byte)
  /-- 0x0B `ANC #$nn` (R389) -/
  | anc0B (v : Byte)
  /-- 0x0C `NOP $nnnn` (R394) -/
  | nop0C (a : Word)
  /-- 0x0D `ORA $nnnn` (R274) -/
  | oraAbs (a : Word)
  /-- 0x0E `ASL $nnnn` (R287) -/
  | aslAbs (a : Word)
  /-- 0x0F `SLO $nnnn` (R381) -/
  | sloAbs (a : Word)
  /-- 0x10 `BPL label` (R336) -/
  | bpl (d : Int)
  /-- 0x11 `ORA ($nn),Y` (R274) -/
  | oraIzy (z : Byte)
  /-- 0x13 `SLO ($nn),Y` (R381) -/
  | sloIzy (z : Byte)
  /-- 0x14 `NOP $nn,X` (R394) -/
  | nop14 (z : Byte)
  /-- 0x15 `ORA $nn,X` (R274) -/
  | oraZpx (z : Byte)
  /-- 0x16 `ASL $nn,X` (R287) -/
  | aslZpx (z : Byte)
  /-- 0x17 `SLO $nn,X` (R381) -/
  | sloZpx (z : Byte)
  /-- 0x19 `ORA $nnnn,Y` (R274) -/
  | oraAby (a : Word)
  /-- 0x1B `SLO $nnnn,Y` (R381) -/
  | sloAby (a : Word)
  /-- 0x1C `NOP $nnnn,X` (R394) -/
  | nop1C (a : Word)
  /-- 0x1D `ORA $nnnn,X` (R274) -/
  | oraAbx (a : Word)
  /-- 0x1E `ASL $nnnn,X` (R287) -/
  | aslAbx (a : Word)
  /-- 0x1F `SLO $nnnn,X` (R381) -/
  | sloAbx (a : Word)
  /-- 0x20 `JSR $nnnn` (R343) -/
  | jsr (a : Word)
  /-- 0x21 `AND ($nn,X)` (R273) -/
  | andIzx (z : Byte)
  /-- 0x23 `RLA ($nn,X)` (R382) -/
  | rlaIzx (z : Byte)
  /-- 0x24 `BIT $nn` (R276) -/
  | bitZp (z : Byte)
  /-- 0x25 `AND $nn` (R273) -/
  | andZp (z : Byte)
  /-- 0x26 `ROL $nn` (R289) -/
  | rolZp (z : Byte)
  /-- 0x27 `RLA $nn` (R382) -/
  | rlaZp (z : Byte)
  /-- 0x29 `AND #$nn` (R273) -/
  | andImm (v : Byte)
  /-- 0x2B `ANC #$nn` (R389) -/
  | anc2B (v : Byte)
  /-- 0x2C `BIT $nnnn` (R276) -/
  | bitAbs (a : Word)
  /-- 0x2D `AND $nnnn` (R273) -/
  | andAbs (a : Word)
  /-- 0x2E `ROL $nnnn` (R289) -/
  | rolAbs (a : Word)
  /-- 0x2F `RLA $nnnn` (R382) -/
  | rlaAbs (a : Word)
  /-- 0x30 `BMI label` (R335) -/
  | bmi (d : Int)
  /-- 0x31 `AND ($nn),Y` (R273) -/
  | andIzy (z : Byte)
  /-- 0x33 `RLA ($nn),Y` (R382) -/
  | rlaIzy (z : Byte)
  /-- 0x34 `NOP $nn,X` (R394) -/
  | nop34 (z : Byte)
  /-- 0x35 `AND $nn,X` (R273) -/
  | andZpx (z : Byte)
  /-- 0x36 `ROL $nn,X` (R289) -/
  | rolZpx (z : Byte)
  /-- 0x37 `RLA $nn,X` (R382) -/
  | rlaZpx (z : Byte)
  /-- 0x39 `AND $nnnn,Y` (R273) -/
  | andAby (a : Word)
  /-- 0x3B `RLA $nnnn,Y` (R382) -/
  | rlaAby (a : Word)
  /-- 0x3C `NOP $nnnn,X` (R394) -/
  | nop3C (a : Word)
  /-- 0x3D `AND $nnnn,X` (R273) -/
  | andAbx (a : Word)
  /-- 0x3E `ROL $nnnn,X` (R289) -/
  | rolAbx (a : Word)
  /-- 0x3F `RLA $nnnn,X` (R382) -/
  | rlaAbx (a : Word)
  /-- 0x41 `EOR ($nn,X)` (R275) -/
  | eorIzx (z : Byte)
  /-- 0x43 `SRE ($nn,X)` (R383) -/
  | sreIzx (z : Byte)
  /-- 0x44 `NOP $nn` (R394) -/
  | nop44 (z : Byte)
  /-- 0x45 `EOR $nn` (R275) -/
  | eorZp (z : Byte)
  /-- 0x46 `LSR $nn` (R288) -/
  | lsrZp (z : Byte)
  /-- 0x47 `SRE $nn` (R383) -/
  | sreZp (z : Byte)
  /-- 0x49 `EOR #$nn` (R275) -/
  | eorImm (v : Byte)
  /-- 0x4B `ALR #$nn` (R390) -/
  | alrImm (v : Byte)
  /-- 0x4C `JMP $nnnn` (R340) -/
  | jmpAbs (a : Word)
  /-- 0x4D `EOR $nnnn` (R275) -/
  | eorAbs (a : Word)
  /-- 0x4E `LSR $nnnn` (R288) -/
  | lsrAbs (a : Word)
  /-- 0x4F `SRE $nnnn` (R383) -/
  | sreAbs (a : Word)
  /-- 0x50 `BVC label` (R337) -/
  | bvc (d : Int)
  /-- 0x51 `EOR ($nn),Y` (R275) -/
  | eorIzy (z : Byte)
  /-- 0x53 `SRE ($nn),Y` (R383) -/
  | sreIzy (z : Byte)
  /-- 0x54 `NOP $nn,X` (R394) -/
  | nop54 (z : Byte)
  /-- 0x55 `EOR $nn,X` (R275) -/
  | eorZpx (z : Byte)
  /-- 0x56 `LSR $nn,X` (R288) -/
  | lsrZpx (z : Byte)
  /-- 0x57 `SRE $nn,X` (R383) -/
  | sreZpx (z : Byte)
  /-- 0x59 `EOR $nnnn,Y` (R275) -/
  | eorAby (a : Word)
  /-- 0x5B `SRE $nnnn,Y` (R383) -/
  | sreAby (a : Word)
  /-- 0x5C `NOP $nnnn,X` (R394) -/
  | nop5C (a : Word)
  /-- 0x5D `EOR $nnnn,X` (R275) -/
  | eorAbx (a : Word)
  /-- 0x5E `LSR $nnnn,X` (R288) -/
  | lsrAbx (a : Word)
  /-- 0x5F `SRE $nnnn,X` (R383) -/
  | sreAbx (a : Word)
  /-- 0x61 `ADC ($nn,X)` (R271) -/
  | adcIzx (z : Byte)
  /-- 0x63 `RRA ($nn,X)` (R384) -/
  | rraIzx (z : Byte)
  /-- 0x64 `NOP $nn` (R394) -/
  | nop64 (z : Byte)
  /-- 0x65 `ADC $nn` (R271) -/
  | adcZp (z : Byte)
  /-- 0x66 `ROR $nn` (R290) -/
  | rorZp (z : Byte)
  /-- 0x67 `RRA $nn` (R384) -/
  | rraZp (z : Byte)
  /-- 0x69 `ADC #$nn` (R271) -/
  | adcImm (v : Byte)
  /-- 0x6B `ARR #$nn` (R391) -/
  | arrImm (v : Byte)
  /-- 0x6C `JMP ($nnnn)` (R341) -/
  | jmpInd (p : Word)
  /-- 0x6D `ADC $nnnn` (R271) -/
  | adcAbs (a : Word)
  /-- 0x6E `ROR $nnnn` (R290) -/
  | rorAbs (a : Word)
  /-- 0x6F `RRA $nnnn` (R384) -/
  | rraAbs (a : Word)
  /-- 0x70 `BVS label` (R338) -/
  | bvs (d : Int)
  /-- 0x71 `ADC ($nn),Y` (R271) -/
  | adcIzy (z : Byte)
  /-- 0x73 `RRA ($nn),Y` (R384) -/
  | rraIzy (z : Byte)
  /-- 0x74 `NOP $nn,X` (R394) -/
  | nop74 (z : Byte)
  /-- 0x75 `ADC $nn,X` (R271) -/
  | adcZpx (z : Byte)
  /-- 0x76 `ROR $nn,X` (R290) -/
  | rorZpx (z : Byte)
  /-- 0x77 `RRA $nn,X` (R384) -/
  | rraZpx (z : Byte)
  /-- 0x79 `ADC $nnnn,Y` (R271) -/
  | adcAby (a : Word)
  /-- 0x7B `RRA $nnnn,Y` (R384) -/
  | rraAby (a : Word)
  /-- 0x7C `NOP $nnnn,X` (R394) -/
  | nop7C (a : Word)
  /-- 0x7D `ADC $nnnn,X` (R271) -/
  | adcAbx (a : Word)
  /-- 0x7E `ROR $nnnn,X` (R290) -/
  | rorAbx (a : Word)
  /-- 0x7F `RRA $nnnn,X` (R384) -/
  | rraAbx (a : Word)
  /-- 0x80 `NOP #$nn` (R394) -/
  | nop80 (v : Byte)
  /-- 0x81 `STA ($nn,X)` (R233) -/
  | staIzx (z : Byte)
  /-- 0x82 `NOP #$nn` (R394) -/
  | nop82 (v : Byte)
  /-- 0x83 `SAX ($nn,X)` (R388) -/
  | saxIzx (z : Byte)
  /-- 0x84 `STY $nn` (R235) -/
  | styZp (z : Byte)
  /-- 0x85 `STA $nn` (R233) -/
  | staZp (z : Byte)
  /-- 0x86 `STX $nn` (R234) -/
  | stxZp (z : Byte)
  /-- 0x87 `SAX $nn` (R388) -/
  | saxZp (z : Byte)
  /-- 0x89 `NOP #$nn` (R394) -/
  | nop89 (v : Byte)
  /-- 0x8B `XAA #$nn` (R398) -/
  | xaaImm (v : Byte)
  /-- 0x8C `STY $nnnn` (R235) -/
  | styAbs (a : Word)
  /-- 0x8D `STA $nnnn` (R233) -/
  | staAbs (a : Word)
  /-- 0x8E `STX $nnnn` (R234) -/
  | stxAbs (a : Word)
  /-- 0x8F `SAX $nnnn` (R388) -/
  | saxAbs (a : Word)
  /-- 0x90 `BCC label` (R331) -/
  | bcc (d : Int)
  /-- 0x91 `STA ($nn),Y` (R233) -/
  | staIzy (z : Byte)
  /-- 0x93 `AHX ($nn),Y` (R399) -/
  | ahxIzy (z : Byte)
  /-- 0x94 `STY $nn,X` (R235) -/
  | styZpx (z : Byte)
  /-- 0x95 `STA $nn,X` (R233) -/
  | staZpx (z : Byte)
  /-- 0x96 `STX $nn,Y` (R234) -/
  | stxZpy (z : Byte)
  /-- 0x97 `SAX $nn,Y` (R388) -/
  | saxZpy (z : Byte)
  /-- 0x99 `STA $nnnn,Y` (R233) -/
  | staAby (a : Word)
  /-- 0x9B `TAS $nnnn,Y` (R400) -/
  | tasAby (a : Word)
  /-- 0x9C `SHY $nnnn,X` (R401) -/
  | shyAbx (a : Word)
  /-- 0x9D `STA $nnnn,X` (R233) -/
  | staAbx (a : Word)
  /-- 0x9E `SHX $nnnn,Y` (R402) -/
  | shxAby (a : Word)
  /-- 0x9F `AHX $nnnn,Y` (R399) -/
  | ahxAby (a : Word)
  /-- 0xA0 `LDY #$nn` (R232) -/
  | ldyImm (v : Byte)
  /-- 0xA1 `LDA ($nn,X)` (R230) -/
  | ldaIzx (z : Byte)
  /-- 0xA2 `LDX #$nn` (R231) -/
  | ldxImm (v : Byte)
  /-- 0xA3 `LAX ($nn,X)` (R387) -/
  | laxIzx (z : Byte)
  /-- 0xA4 `LDY $nn` (R232) -/
  | ldyZp (z : Byte)
  /-- 0xA5 `LDA $nn` (R230) -/
  | ldaZp (z : Byte)
  /-- 0xA6 `LDX $nn` (R231) -/
  | ldxZp (z : Byte)
  /-- 0xA7 `LAX $nn` (R387) -/
  | laxZp (z : Byte)
  /-- 0xA9 `LDA #$nn` (R230) -/
  | ldaImm (v : Byte)
  /-- 0xAB `LXA #$nn` (R403) -/
  | lxaImm (v : Byte)
  /-- 0xAC `LDY $nnnn` (R232) -/
  | ldyAbs (a : Word)
  /-- 0xAD `LDA $nnnn` (R230) -/
  | ldaAbs (a : Word)
  /-- 0xAE `LDX $nnnn` (R231) -/
  | ldxAbs (a : Word)
  /-- 0xAF `LAX $nnnn` (R387) -/
  | laxAbs (a : Word)
  /-- 0xB0 `BCS label` (R332) -/
  | bcs (d : Int)
  /-- 0xB1 `LDA ($nn),Y` (R230) -/
  | ldaIzy (z : Byte)
  /-- 0xB3 `LAX ($nn),Y` (R387) -/
  | laxIzy (z : Byte)
  /-- 0xB4 `LDY $nn,X` (R232) -/
  | ldyZpx (z : Byte)
  /-- 0xB5 `LDA $nn,X` (R230) -/
  | ldaZpx (z : Byte)
  /-- 0xB6 `LDX $nn,Y` (R231) -/
  | ldxZpy (z : Byte)
  /-- 0xB7 `LAX $nn,Y` (R387) -/
  | laxZpy (z : Byte)
  /-- 0xB9 `LDA $nnnn,Y` (R230) -/
  | ldaAby (a : Word)
  /-- 0xBB `LAS $nnnn,Y` (R404) -/
  | lasAby (a : Word)
  /-- 0xBC `LDY $nnnn,X` (R232) -/
  | ldyAbx (a : Word)
  /-- 0xBD `LDA $nnnn,X` (R230) -/
  | ldaAbx (a : Word)
  /-- 0xBE `LDX $nnnn,Y` (R231) -/
  | ldxAby (a : Word)
  /-- 0xBF `LAX $nnnn,Y` (R387) -/
  | laxAby (a : Word)
  /-- 0xC0 `CPY #$nn` (R279) -/
  | cpyImm (v : Byte)
  /-- 0xC1 `CMP ($nn,X)` (R277) -/
  | cmpIzx (z : Byte)
  /-- 0xC2 `NOP #$nn` (R394) -/
  | nopC2 (v : Byte)
  /-- 0xC3 `DCP ($nn,X)` (R385) -/
  | dcpIzx (z : Byte)
  /-- 0xC4 `CPY $nn` (R279) -/
  | cpyZp (z : Byte)
  /-- 0xC5 `CMP $nn` (R277) -/
  | cmpZp (z : Byte)
  /-- 0xC6 `DEC $nn` (R282) -/
  | decZp (z : Byte)
  /-- 0xC7 `DCP $nn` (R385) -/
  | dcpZp (z : Byte)
  /-- 0xC9 `CMP #$nn` (R277) -/
  | cmpImm (v : Byte)
  /-- 0xCB `AXS #$nn` (R392) -/
  | axsImm (v : Byte)
  /-- 0xCC `CPY $nnnn` (R279) -/
  | cpyAbs (a : Word)
  /-- 0xCD `CMP $nnnn` (R277) -/
  | cmpAbs (a : Word)
  /-- 0xCE `DEC $nnnn` (R282) -/
  | decAbs (a : Word)
  /-- 0xCF `DCP $nnnn` (R385) -/
  | dcpAbs (a : Word)
  /-- 0xD0 `BNE label` (R334) -/
  | bne (d : Int)
  /-- 0xD1 `CMP ($nn),Y` (R277) -/
  | cmpIzy (z : Byte)
  /-- 0xD3 `DCP ($nn),Y` (R385) -/
  | dcpIzy (z : Byte)
  /-- 0xD4 `NOP $nn,X` (R394) -/
  | nopD4 (z : Byte)
  /-- 0xD5 `CMP $nn,X` (R277) -/
  | cmpZpx (z : Byte)
  /-- 0xD6 `DEC $nn,X` (R282) -/
  | decZpx (z : Byte)
  /-- 0xD7 `DCP $nn,X` (R385) -/
  | dcpZpx (z : Byte)
  /-- 0xD9 `CMP $nnnn,Y` (R277) -/
  | cmpAby (a : Word)
  /-- 0xDB `DCP $nnnn,Y` (R385) -/
  | dcpAby (a : Word)
  /-- 0xDC `NOP $nnnn,X` (R394) -/
  | nopDC (a : Word)
  /-- 0xDD `CMP $nnnn,X` (R277) -/
  | cmpAbx (a : Word)
  /-- 0xDE `DEC $nnnn,X` (R282) -/
  | decAbx (a : Word)
  /-- 0xDF `DCP $nnnn,X` (R385) -/
  | dcpAbx (a : Word)
  /-- 0xE0 `CPX #$nn` (R278) -/
  | cpxImm (v : Byte)
  /-- 0xE1 `SBC ($nn,X)` (R272) -/
  | sbcIzx (z : Byte)
  /-- 0xE2 `NOP #$nn` (R394) -/
  | nopE2 (v : Byte)
  /-- 0xE3 `ISC ($nn,X)` (R386) -/
  | iscIzx (z : Byte)
  /-- 0xE4 `CPX $nn` (R278) -/
  | cpxZp (z : Byte)
  /-- 0xE5 `SBC $nn` (R272) -/
  | sbcZp (z : Byte)
  /-- 0xE6 `INC $nn` (R281) -/
  | incZp (z : Byte)
  /-- 0xE7 `ISC $nn` (R386) -/
  | iscZp (z : Byte)
  /-- 0xE9 `SBC #$nn` (R272) -/
  | sbcImm (v : Byte)
  /-- 0xEB `SBC #$nn` (R393) -/
  | sbcEB (v : Byte)
  /-- 0xEC `CPX $nnnn` (R278) -/
  | cpxAbs (a : Word)
  /-- 0xED `SBC $nnnn` (R272) -/
  | sbcAbs (a : Word)
  /-- 0xEE `INC $nnnn` (R281) -/
  | incAbs (a : Word)
  /-- 0xEF `ISC $nnnn` (R386) -/
  | iscAbs (a : Word)
  /-- 0xF0 `BEQ label` (R333) -/
  | beq (d : Int)
  /-- 0xF1 `SBC ($nn),Y` (R272) -/
  | sbcIzy (z : Byte)
  /-- 0xF3 `ISC ($nn),Y` (R386) -/
  | iscIzy (z : Byte)
  /-- 0xF4 `NOP $nn,X` (R394) -/
  | nopF4 (z : Byte)
  /-- 0xF5 `SBC $nn,X` (R272) -/
  | sbcZpx (z : Byte)
  /-- 0xF6 `INC $nn,X` (R281) -/
  | incZpx (z : Byte)
  /-- 0xF7 `ISC $nn,X` (R386) -/
  | iscZpx (z : Byte)
  /-- 0xF9 `SBC $nnnn,Y` (R272) -/
  | sbcAby (a : Word)
  /-- 0xFB `ISC $nnnn,Y` (R386) -/
  | iscAby (a : Word)
  /-- 0xFC `NOP $nnnn,X` (R394) -/
  | nopFC (a : Word)
  /-- 0xFD `SBC $nnnn,X` (R272) -/
  | sbcAbx (a : Word)
  /-- 0xFE `INC $nnnn,X` (R281) -/
  | incAbx (a : Word)
  /-- 0xFF `ISC $nnnn,X` (R386) -/
  | iscAbx (a : Word)
  /-- 0x00 `BRK` (R346) -/
  | brk
  /-- 0x02 `JAM` (R397) -/
  | jam02
  /-- 0x08 `PHP` (R243) -/
  | php
  /-- 0x0A `ASL A` (R287) -/
  | aslAcc
  /-- 0x12 `JAM` (R397) -/
  | jam12
  /-- 0x18 `CLC` (R347) -/
  | clc
  /-- 0x1A `NOP` (R394) -/
  | nop1A
  /-- 0x22 `JAM` (R397) -/
  | jam22
  /-- 0x28 `PLP` (R245) -/
  | plp
  /-- 0x2A `ROL A` (R289) -/
  | rolAcc
  /-- 0x32 `JAM` (R397) -/
  | jam32
  /-- 0x38 `SEC` (R348) -/
  | sec
  /-- 0x3A `NOP` (R394) -/
  | nop3A
  /-- 0x40 `RTI` (R345) -/
  | rti
  /-- 0x42 `JAM` (R397) -/
  | jam42
  /-- 0x48 `PHA` (R242) -/
  | pha
  /-- 0x4A `LSR A` (R288) -/
  | lsrAcc
  /-- 0x52 `JAM` (R397) -/
  | jam52
  /-- 0x58 `CLI` (R349) -/
  | cli
  /-- 0x5A `NOP` (R394) -/
  | nop5A
  /-- 0x60 `RTS` (R344) -/
  | rts
  /-- 0x62 `JAM` (R397) -/
  | jam62
  /-- 0x68 `PLA` (R244) -/
  | pla
  /-- 0x6A `ROR A` (R290) -/
  | rorAcc
  /-- 0x72 `JAM` (R397) -/
  | jam72
  /-- 0x78 `SEI` (R350) -/
  | sei
  /-- 0x7A `NOP` (R394) -/
  | nop7A
  /-- 0x88 `DEY` (R286) -/
  | dey
  /-- 0x8A `TXA` (R238) -/
  | txa
  /-- 0x92 `JAM` (R397) -/
  | jam92
  /-- 0x98 `TYA` (R239) -/
  | tya
  /-- 0x9A `TXS` (R241) -/
  | txs
  /-- 0xA8 `TAY` (R237) -/
  | tay
  /-- 0xAA `TAX` (R236) -/
  | tax
  /-- 0xB2 `JAM` (R397) -/
  | jamB2
  /-- 0xB8 `CLV` (R353) -/
  | clv
  /-- 0xBA `TSX` (R240) -/
  | tsx
  /-- 0xC8 `INY` (R284) -/
  | iny
  /-- 0xCA `DEX` (R285) -/
  | dex
  /-- 0xD2 `JAM` (R397) -/
  | jamD2
  /-- 0xD8 `CLD` (R351) -/
  | cld
  /-- 0xDA `NOP` (R394) -/
  | nopDA
  /-- 0xE8 `INX` (R283) -/
  | inx
  /-- 0xEA `NOP` (R354) -/
  | nop
  /-- 0xF2 `JAM` (R397) -/
  | jamF2
  /-- 0xF8 `SED` (R352) -/
  | sed
  /-- 0xFA `NOP` (R394) -/
  | nopFA
  deriving DecidableEq, Repr

end Sys2Proof
end

