-- ==== Sys2Proof/WellFormed.lean ====
section
/-! DEFINITION. Which instruction terms the encoding admits. A byte or a 16-bit operand fits its field by its type; the
one field whose term is wider than its encoding is a branch displacement, which must lie in [−128, 127]
(30_encoding.md R166, R175). -/

namespace Sys2Proof

/-- A branch displacement that byte 1 can hold (R166, R175). -/
def displacementFits (d : Int) : Bool := decide (-128 ≤ d) && decide (d ≤ 127)

/-- The instruction has an encoding. -/
def Instr.wellFormed (i : Instr) : Bool :=
  match i with
  | .bpl d | .bmi d | .bvc d | .bvs d | .bcc d | .bcs d | .bne d | .beq d => displacementFits d
  | .brk | .oraIzx _ | .jam02 | .sloIzx _ | .nop04 _ | .oraZp _ | .aslZp _ | .sloZp _
  | .php | .oraImm _ | .aslAcc | .anc0B _ | .nop0C _ | .oraAbs _ | .aslAbs _ | .sloAbs _
  | .oraIzy _ | .jam12 | .sloIzy _ | .nop14 _ | .oraZpx _ | .aslZpx _ | .sloZpx _ | .clc
  | .oraAby _ | .nop1A | .sloAby _ | .nop1C _ | .oraAbx _ | .aslAbx _ | .sloAbx _ | .jsr _
  | .andIzx _ | .jam22 | .rlaIzx _ | .bitZp _ | .andZp _ | .rolZp _ | .rlaZp _ | .plp
  | .andImm _ | .rolAcc | .anc2B _ | .bitAbs _ | .andAbs _ | .rolAbs _ | .rlaAbs _ | .andIzy _
  | .jam32 | .rlaIzy _ | .nop34 _ | .andZpx _ | .rolZpx _ | .rlaZpx _ | .sec | .andAby _
  | .nop3A | .rlaAby _ | .nop3C _ | .andAbx _ | .rolAbx _ | .rlaAbx _ | .rti | .eorIzx _
  | .jam42 | .sreIzx _ | .nop44 _ | .eorZp _ | .lsrZp _ | .sreZp _ | .pha | .eorImm _
  | .lsrAcc | .alrImm _ | .jmpAbs _ | .eorAbs _ | .lsrAbs _ | .sreAbs _ | .eorIzy _ | .jam52
  | .sreIzy _ | .nop54 _ | .eorZpx _ | .lsrZpx _ | .sreZpx _ | .cli | .eorAby _ | .nop5A
  | .sreAby _ | .nop5C _ | .eorAbx _ | .lsrAbx _ | .sreAbx _ | .rts | .adcIzx _ | .jam62
  | .rraIzx _ | .nop64 _ | .adcZp _ | .rorZp _ | .rraZp _ | .pla | .adcImm _ | .rorAcc
  | .arrImm _ | .jmpInd _ | .adcAbs _ | .rorAbs _ | .rraAbs _ | .adcIzy _ | .jam72 | .rraIzy _
  | .nop74 _ | .adcZpx _ | .rorZpx _ | .rraZpx _ | .sei | .adcAby _ | .nop7A | .rraAby _
  | .nop7C _ | .adcAbx _ | .rorAbx _ | .rraAbx _ | .nop80 _ | .staIzx _ | .nop82 _ | .saxIzx _
  | .styZp _ | .staZp _ | .stxZp _ | .saxZp _ | .dey | .nop89 _ | .txa | .xaaImm _
  | .styAbs _ | .staAbs _ | .stxAbs _ | .saxAbs _ | .staIzy _ | .jam92 | .ahxIzy _ | .styZpx _
  | .staZpx _ | .stxZpy _ | .saxZpy _ | .tya | .staAby _ | .txs | .tasAby _ | .shyAbx _
  | .staAbx _ | .shxAby _ | .ahxAby _ | .ldyImm _ | .ldaIzx _ | .ldxImm _ | .laxIzx _ | .ldyZp _
  | .ldaZp _ | .ldxZp _ | .laxZp _ | .tay | .ldaImm _ | .tax | .lxaImm _ | .ldyAbs _
  | .ldaAbs _ | .ldxAbs _ | .laxAbs _ | .ldaIzy _ | .jamB2 | .laxIzy _ | .ldyZpx _ | .ldaZpx _
  | .ldxZpy _ | .laxZpy _ | .clv | .ldaAby _ | .tsx | .lasAby _ | .ldyAbx _ | .ldaAbx _
  | .ldxAby _ | .laxAby _ | .cpyImm _ | .cmpIzx _ | .nopC2 _ | .dcpIzx _ | .cpyZp _ | .cmpZp _
  | .decZp _ | .dcpZp _ | .iny | .cmpImm _ | .dex | .axsImm _ | .cpyAbs _ | .cmpAbs _
  | .decAbs _ | .dcpAbs _ | .cmpIzy _ | .jamD2 | .dcpIzy _ | .nopD4 _ | .cmpZpx _ | .decZpx _
  | .dcpZpx _ | .cld | .cmpAby _ | .nopDA | .dcpAby _ | .nopDC _ | .cmpAbx _ | .decAbx _
  | .dcpAbx _ | .cpxImm _ | .sbcIzx _ | .nopE2 _ | .iscIzx _ | .cpxZp _ | .sbcZp _ | .incZp _
  | .iscZp _ | .inx | .sbcImm _ | .nop | .sbcEB _ | .cpxAbs _ | .sbcAbs _ | .incAbs _
  | .iscAbs _ | .sbcIzy _ | .jamF2 | .iscIzy _ | .nopF4 _ | .sbcZpx _ | .incZpx _ | .iscZpx _
  | .sed | .sbcAby _ | .nopFA | .iscAby _ | .nopFC _ | .sbcAbx _ | .incAbx _ | .iscAbx _ => true

/-- `i.WellFormed`: the instruction has an encoding (a decidable proposition). -/
abbrev Instr.WellFormed (i : Instr) : Prop := i.wellFormed = true

end Sys2Proof
end

