-- ==== Sys2Proof/Decode.lean ====
section
/-! DEFINITION. The opcode map (30_encoding.md R172), the decoder (R160 to R167, R173, R174) and, after it, the encoder.
Decoding is total on the 256 opcode bytes (R167); the only byte strings it rejects are those that end before the
instruction does. -/

namespace Sys2Proof

/-- The 16-bit value of operand bytes 1 and 2: byte 2 is the high byte (R164, 20_memory.md R101). -/
def wordOf (lo hi : Byte) : Word := hi ++ lo

/-- The low byte of a 16-bit value. -/
def loByte (w : Word) : Byte := w.extractLsb' 0 8

/-- The high byte of a 16-bit value. -/
def hiByte (w : Word) : Byte := w.extractLsb' 8 8

/-- The displacement that byte 1 of a branch encodes: two's complement (R166). -/
def displacementOf (b : Byte) : Int := b.toInt

/-- Byte 1 of a branch with this displacement (R166). -/
def displacementByte (d : Int) : Byte := BitVec.ofInt 8 d

/-- The length in bytes of an instruction of each mode (the length column of R161). -/
def Mode.length (m : Mode) : Nat :=
  match m with
  | .imp | .acc => 1
  | .imm | .zp | .zpx | .zpy | .rel | .izx | .izy => 2
  | .abs | .abx | .aby | .ind => 3

/-- The opcode map of R172: each instruction's row. -/
def Instr.row (i : Instr) : Row :=
  match i with
  | .brk => ⟨0x00, .brk, .imp, 7, false, .official⟩
  | .oraIzx _ => ⟨0x01, .ora, .izx, 6, false, .official⟩
  | .jam02 => ⟨0x02, .jam, .imp, 2, false, .jam⟩
  | .sloIzx _ => ⟨0x03, .slo, .izx, 8, false, .unofficial⟩
  | .nop04 _ => ⟨0x04, .nop, .zp, 3, false, .unofficial⟩
  | .oraZp _ => ⟨0x05, .ora, .zp, 3, false, .official⟩
  | .aslZp _ => ⟨0x06, .asl, .zp, 5, false, .official⟩
  | .sloZp _ => ⟨0x07, .slo, .zp, 5, false, .unofficial⟩
  | .php => ⟨0x08, .php, .imp, 3, false, .official⟩
  | .oraImm _ => ⟨0x09, .ora, .imm, 2, false, .official⟩
  | .aslAcc => ⟨0x0A, .asl, .acc, 2, false, .official⟩
  | .anc0B _ => ⟨0x0B, .anc, .imm, 2, false, .unofficial⟩
  | .nop0C _ => ⟨0x0C, .nop, .abs, 4, false, .unofficial⟩
  | .oraAbs _ => ⟨0x0D, .ora, .abs, 4, false, .official⟩
  | .aslAbs _ => ⟨0x0E, .asl, .abs, 6, false, .official⟩
  | .sloAbs _ => ⟨0x0F, .slo, .abs, 6, false, .unofficial⟩
  | .bpl _ => ⟨0x10, .bpl, .rel, 2, false, .official⟩
  | .oraIzy _ => ⟨0x11, .ora, .izy, 5, true, .official⟩
  | .jam12 => ⟨0x12, .jam, .imp, 2, false, .jam⟩
  | .sloIzy _ => ⟨0x13, .slo, .izy, 8, false, .unofficial⟩
  | .nop14 _ => ⟨0x14, .nop, .zpx, 4, false, .unofficial⟩
  | .oraZpx _ => ⟨0x15, .ora, .zpx, 4, false, .official⟩
  | .aslZpx _ => ⟨0x16, .asl, .zpx, 6, false, .official⟩
  | .sloZpx _ => ⟨0x17, .slo, .zpx, 6, false, .unofficial⟩
  | .clc => ⟨0x18, .clc, .imp, 2, false, .official⟩
  | .oraAby _ => ⟨0x19, .ora, .aby, 4, true, .official⟩
  | .nop1A => ⟨0x1A, .nop, .imp, 2, false, .unofficial⟩
  | .sloAby _ => ⟨0x1B, .slo, .aby, 7, false, .unofficial⟩
  | .nop1C _ => ⟨0x1C, .nop, .abx, 4, true, .unofficial⟩
  | .oraAbx _ => ⟨0x1D, .ora, .abx, 4, true, .official⟩
  | .aslAbx _ => ⟨0x1E, .asl, .abx, 7, false, .official⟩
  | .sloAbx _ => ⟨0x1F, .slo, .abx, 7, false, .unofficial⟩
  | .jsr _ => ⟨0x20, .jsr, .abs, 6, false, .official⟩
  | .andIzx _ => ⟨0x21, .and, .izx, 6, false, .official⟩
  | .jam22 => ⟨0x22, .jam, .imp, 2, false, .jam⟩
  | .rlaIzx _ => ⟨0x23, .rla, .izx, 8, false, .unofficial⟩
  | .bitZp _ => ⟨0x24, .bit, .zp, 3, false, .official⟩
  | .andZp _ => ⟨0x25, .and, .zp, 3, false, .official⟩
  | .rolZp _ => ⟨0x26, .rol, .zp, 5, false, .official⟩
  | .rlaZp _ => ⟨0x27, .rla, .zp, 5, false, .unofficial⟩
  | .plp => ⟨0x28, .plp, .imp, 4, false, .official⟩
  | .andImm _ => ⟨0x29, .and, .imm, 2, false, .official⟩
  | .rolAcc => ⟨0x2A, .rol, .acc, 2, false, .official⟩
  | .anc2B _ => ⟨0x2B, .anc, .imm, 2, false, .unofficial⟩
  | .bitAbs _ => ⟨0x2C, .bit, .abs, 4, false, .official⟩
  | .andAbs _ => ⟨0x2D, .and, .abs, 4, false, .official⟩
  | .rolAbs _ => ⟨0x2E, .rol, .abs, 6, false, .official⟩
  | .rlaAbs _ => ⟨0x2F, .rla, .abs, 6, false, .unofficial⟩
  | .bmi _ => ⟨0x30, .bmi, .rel, 2, false, .official⟩
  | .andIzy _ => ⟨0x31, .and, .izy, 5, true, .official⟩
  | .jam32 => ⟨0x32, .jam, .imp, 2, false, .jam⟩
  | .rlaIzy _ => ⟨0x33, .rla, .izy, 8, false, .unofficial⟩
  | .nop34 _ => ⟨0x34, .nop, .zpx, 4, false, .unofficial⟩
  | .andZpx _ => ⟨0x35, .and, .zpx, 4, false, .official⟩
  | .rolZpx _ => ⟨0x36, .rol, .zpx, 6, false, .official⟩
  | .rlaZpx _ => ⟨0x37, .rla, .zpx, 6, false, .unofficial⟩
  | .sec => ⟨0x38, .sec, .imp, 2, false, .official⟩
  | .andAby _ => ⟨0x39, .and, .aby, 4, true, .official⟩
  | .nop3A => ⟨0x3A, .nop, .imp, 2, false, .unofficial⟩
  | .rlaAby _ => ⟨0x3B, .rla, .aby, 7, false, .unofficial⟩
  | .nop3C _ => ⟨0x3C, .nop, .abx, 4, true, .unofficial⟩
  | .andAbx _ => ⟨0x3D, .and, .abx, 4, true, .official⟩
  | .rolAbx _ => ⟨0x3E, .rol, .abx, 7, false, .official⟩
  | .rlaAbx _ => ⟨0x3F, .rla, .abx, 7, false, .unofficial⟩
  | .rti => ⟨0x40, .rti, .imp, 6, false, .official⟩
  | .eorIzx _ => ⟨0x41, .eor, .izx, 6, false, .official⟩
  | .jam42 => ⟨0x42, .jam, .imp, 2, false, .jam⟩
  | .sreIzx _ => ⟨0x43, .sre, .izx, 8, false, .unofficial⟩
  | .nop44 _ => ⟨0x44, .nop, .zp, 3, false, .unofficial⟩
  | .eorZp _ => ⟨0x45, .eor, .zp, 3, false, .official⟩
  | .lsrZp _ => ⟨0x46, .lsr, .zp, 5, false, .official⟩
  | .sreZp _ => ⟨0x47, .sre, .zp, 5, false, .unofficial⟩
  | .pha => ⟨0x48, .pha, .imp, 3, false, .official⟩
  | .eorImm _ => ⟨0x49, .eor, .imm, 2, false, .official⟩
  | .lsrAcc => ⟨0x4A, .lsr, .acc, 2, false, .official⟩
  | .alrImm _ => ⟨0x4B, .alr, .imm, 2, false, .unofficial⟩
  | .jmpAbs _ => ⟨0x4C, .jmp, .abs, 3, false, .official⟩
  | .eorAbs _ => ⟨0x4D, .eor, .abs, 4, false, .official⟩
  | .lsrAbs _ => ⟨0x4E, .lsr, .abs, 6, false, .official⟩
  | .sreAbs _ => ⟨0x4F, .sre, .abs, 6, false, .unofficial⟩
  | .bvc _ => ⟨0x50, .bvc, .rel, 2, false, .official⟩
  | .eorIzy _ => ⟨0x51, .eor, .izy, 5, true, .official⟩
  | .jam52 => ⟨0x52, .jam, .imp, 2, false, .jam⟩
  | .sreIzy _ => ⟨0x53, .sre, .izy, 8, false, .unofficial⟩
  | .nop54 _ => ⟨0x54, .nop, .zpx, 4, false, .unofficial⟩
  | .eorZpx _ => ⟨0x55, .eor, .zpx, 4, false, .official⟩
  | .lsrZpx _ => ⟨0x56, .lsr, .zpx, 6, false, .official⟩
  | .sreZpx _ => ⟨0x57, .sre, .zpx, 6, false, .unofficial⟩
  | .cli => ⟨0x58, .cli, .imp, 2, false, .official⟩
  | .eorAby _ => ⟨0x59, .eor, .aby, 4, true, .official⟩
  | .nop5A => ⟨0x5A, .nop, .imp, 2, false, .unofficial⟩
  | .sreAby _ => ⟨0x5B, .sre, .aby, 7, false, .unofficial⟩
  | .nop5C _ => ⟨0x5C, .nop, .abx, 4, true, .unofficial⟩
  | .eorAbx _ => ⟨0x5D, .eor, .abx, 4, true, .official⟩
  | .lsrAbx _ => ⟨0x5E, .lsr, .abx, 7, false, .official⟩
  | .sreAbx _ => ⟨0x5F, .sre, .abx, 7, false, .unofficial⟩
  | .rts => ⟨0x60, .rts, .imp, 6, false, .official⟩
  | .adcIzx _ => ⟨0x61, .adc, .izx, 6, false, .official⟩
  | .jam62 => ⟨0x62, .jam, .imp, 2, false, .jam⟩
  | .rraIzx _ => ⟨0x63, .rra, .izx, 8, false, .unofficial⟩
  | .nop64 _ => ⟨0x64, .nop, .zp, 3, false, .unofficial⟩
  | .adcZp _ => ⟨0x65, .adc, .zp, 3, false, .official⟩
  | .rorZp _ => ⟨0x66, .ror, .zp, 5, false, .official⟩
  | .rraZp _ => ⟨0x67, .rra, .zp, 5, false, .unofficial⟩
  | .pla => ⟨0x68, .pla, .imp, 4, false, .official⟩
  | .adcImm _ => ⟨0x69, .adc, .imm, 2, false, .official⟩
  | .rorAcc => ⟨0x6A, .ror, .acc, 2, false, .official⟩
  | .arrImm _ => ⟨0x6B, .arr, .imm, 2, false, .unofficial⟩
  | .jmpInd _ => ⟨0x6C, .jmp, .ind, 5, false, .official⟩
  | .adcAbs _ => ⟨0x6D, .adc, .abs, 4, false, .official⟩
  | .rorAbs _ => ⟨0x6E, .ror, .abs, 6, false, .official⟩
  | .rraAbs _ => ⟨0x6F, .rra, .abs, 6, false, .unofficial⟩
  | .bvs _ => ⟨0x70, .bvs, .rel, 2, false, .official⟩
  | .adcIzy _ => ⟨0x71, .adc, .izy, 5, true, .official⟩
  | .jam72 => ⟨0x72, .jam, .imp, 2, false, .jam⟩
  | .rraIzy _ => ⟨0x73, .rra, .izy, 8, false, .unofficial⟩
  | .nop74 _ => ⟨0x74, .nop, .zpx, 4, false, .unofficial⟩
  | .adcZpx _ => ⟨0x75, .adc, .zpx, 4, false, .official⟩
  | .rorZpx _ => ⟨0x76, .ror, .zpx, 6, false, .official⟩
  | .rraZpx _ => ⟨0x77, .rra, .zpx, 6, false, .unofficial⟩
  | .sei => ⟨0x78, .sei, .imp, 2, false, .official⟩
  | .adcAby _ => ⟨0x79, .adc, .aby, 4, true, .official⟩
  | .nop7A => ⟨0x7A, .nop, .imp, 2, false, .unofficial⟩
  | .rraAby _ => ⟨0x7B, .rra, .aby, 7, false, .unofficial⟩
  | .nop7C _ => ⟨0x7C, .nop, .abx, 4, true, .unofficial⟩
  | .adcAbx _ => ⟨0x7D, .adc, .abx, 4, true, .official⟩
  | .rorAbx _ => ⟨0x7E, .ror, .abx, 7, false, .official⟩
  | .rraAbx _ => ⟨0x7F, .rra, .abx, 7, false, .unofficial⟩
  | .nop80 _ => ⟨0x80, .nop, .imm, 2, false, .unofficial⟩
  | .staIzx _ => ⟨0x81, .sta, .izx, 6, false, .official⟩
  | .nop82 _ => ⟨0x82, .nop, .imm, 2, false, .unofficial⟩
  | .saxIzx _ => ⟨0x83, .sax, .izx, 6, false, .unofficial⟩
  | .styZp _ => ⟨0x84, .sty, .zp, 3, false, .official⟩
  | .staZp _ => ⟨0x85, .sta, .zp, 3, false, .official⟩
  | .stxZp _ => ⟨0x86, .stx, .zp, 3, false, .official⟩
  | .saxZp _ => ⟨0x87, .sax, .zp, 3, false, .unofficial⟩
  | .dey => ⟨0x88, .dey, .imp, 2, false, .official⟩
  | .nop89 _ => ⟨0x89, .nop, .imm, 2, false, .unofficial⟩
  | .txa => ⟨0x8A, .txa, .imp, 2, false, .official⟩
  | .xaaImm _ => ⟨0x8B, .xaa, .imm, 2, false, .unstable⟩
  | .styAbs _ => ⟨0x8C, .sty, .abs, 4, false, .official⟩
  | .staAbs _ => ⟨0x8D, .sta, .abs, 4, false, .official⟩
  | .stxAbs _ => ⟨0x8E, .stx, .abs, 4, false, .official⟩
  | .saxAbs _ => ⟨0x8F, .sax, .abs, 4, false, .unofficial⟩
  | .bcc _ => ⟨0x90, .bcc, .rel, 2, false, .official⟩
  | .staIzy _ => ⟨0x91, .sta, .izy, 6, false, .official⟩
  | .jam92 => ⟨0x92, .jam, .imp, 2, false, .jam⟩
  | .ahxIzy _ => ⟨0x93, .ahx, .izy, 6, false, .unstable⟩
  | .styZpx _ => ⟨0x94, .sty, .zpx, 4, false, .official⟩
  | .staZpx _ => ⟨0x95, .sta, .zpx, 4, false, .official⟩
  | .stxZpy _ => ⟨0x96, .stx, .zpy, 4, false, .official⟩
  | .saxZpy _ => ⟨0x97, .sax, .zpy, 4, false, .unofficial⟩
  | .tya => ⟨0x98, .tya, .imp, 2, false, .official⟩
  | .staAby _ => ⟨0x99, .sta, .aby, 5, false, .official⟩
  | .txs => ⟨0x9A, .txs, .imp, 2, false, .official⟩
  | .tasAby _ => ⟨0x9B, .tas, .aby, 5, false, .unstable⟩
  | .shyAbx _ => ⟨0x9C, .shy, .abx, 5, false, .unstable⟩
  | .staAbx _ => ⟨0x9D, .sta, .abx, 5, false, .official⟩
  | .shxAby _ => ⟨0x9E, .shx, .aby, 5, false, .unstable⟩
  | .ahxAby _ => ⟨0x9F, .ahx, .aby, 5, false, .unstable⟩
  | .ldyImm _ => ⟨0xA0, .ldy, .imm, 2, false, .official⟩
  | .ldaIzx _ => ⟨0xA1, .lda, .izx, 6, false, .official⟩
  | .ldxImm _ => ⟨0xA2, .ldx, .imm, 2, false, .official⟩
  | .laxIzx _ => ⟨0xA3, .lax, .izx, 6, false, .unofficial⟩
  | .ldyZp _ => ⟨0xA4, .ldy, .zp, 3, false, .official⟩
  | .ldaZp _ => ⟨0xA5, .lda, .zp, 3, false, .official⟩
  | .ldxZp _ => ⟨0xA6, .ldx, .zp, 3, false, .official⟩
  | .laxZp _ => ⟨0xA7, .lax, .zp, 3, false, .unofficial⟩
  | .tay => ⟨0xA8, .tay, .imp, 2, false, .official⟩
  | .ldaImm _ => ⟨0xA9, .lda, .imm, 2, false, .official⟩
  | .tax => ⟨0xAA, .tax, .imp, 2, false, .official⟩
  | .lxaImm _ => ⟨0xAB, .lxa, .imm, 2, false, .unstable⟩
  | .ldyAbs _ => ⟨0xAC, .ldy, .abs, 4, false, .official⟩
  | .ldaAbs _ => ⟨0xAD, .lda, .abs, 4, false, .official⟩
  | .ldxAbs _ => ⟨0xAE, .ldx, .abs, 4, false, .official⟩
  | .laxAbs _ => ⟨0xAF, .lax, .abs, 4, false, .unofficial⟩
  | .bcs _ => ⟨0xB0, .bcs, .rel, 2, false, .official⟩
  | .ldaIzy _ => ⟨0xB1, .lda, .izy, 5, true, .official⟩
  | .jamB2 => ⟨0xB2, .jam, .imp, 2, false, .jam⟩
  | .laxIzy _ => ⟨0xB3, .lax, .izy, 5, true, .unofficial⟩
  | .ldyZpx _ => ⟨0xB4, .ldy, .zpx, 4, false, .official⟩
  | .ldaZpx _ => ⟨0xB5, .lda, .zpx, 4, false, .official⟩
  | .ldxZpy _ => ⟨0xB6, .ldx, .zpy, 4, false, .official⟩
  | .laxZpy _ => ⟨0xB7, .lax, .zpy, 4, false, .unofficial⟩
  | .clv => ⟨0xB8, .clv, .imp, 2, false, .official⟩
  | .ldaAby _ => ⟨0xB9, .lda, .aby, 4, true, .official⟩
  | .tsx => ⟨0xBA, .tsx, .imp, 2, false, .official⟩
  | .lasAby _ => ⟨0xBB, .las, .aby, 4, true, .unstable⟩
  | .ldyAbx _ => ⟨0xBC, .ldy, .abx, 4, true, .official⟩
  | .ldaAbx _ => ⟨0xBD, .lda, .abx, 4, true, .official⟩
  | .ldxAby _ => ⟨0xBE, .ldx, .aby, 4, true, .official⟩
  | .laxAby _ => ⟨0xBF, .lax, .aby, 4, true, .unofficial⟩
  | .cpyImm _ => ⟨0xC0, .cpy, .imm, 2, false, .official⟩
  | .cmpIzx _ => ⟨0xC1, .cmp, .izx, 6, false, .official⟩
  | .nopC2 _ => ⟨0xC2, .nop, .imm, 2, false, .unofficial⟩
  | .dcpIzx _ => ⟨0xC3, .dcp, .izx, 8, false, .unofficial⟩
  | .cpyZp _ => ⟨0xC4, .cpy, .zp, 3, false, .official⟩
  | .cmpZp _ => ⟨0xC5, .cmp, .zp, 3, false, .official⟩
  | .decZp _ => ⟨0xC6, .dec, .zp, 5, false, .official⟩
  | .dcpZp _ => ⟨0xC7, .dcp, .zp, 5, false, .unofficial⟩
  | .iny => ⟨0xC8, .iny, .imp, 2, false, .official⟩
  | .cmpImm _ => ⟨0xC9, .cmp, .imm, 2, false, .official⟩
  | .dex => ⟨0xCA, .dex, .imp, 2, false, .official⟩
  | .axsImm _ => ⟨0xCB, .axs, .imm, 2, false, .unofficial⟩
  | .cpyAbs _ => ⟨0xCC, .cpy, .abs, 4, false, .official⟩
  | .cmpAbs _ => ⟨0xCD, .cmp, .abs, 4, false, .official⟩
  | .decAbs _ => ⟨0xCE, .dec, .abs, 6, false, .official⟩
  | .dcpAbs _ => ⟨0xCF, .dcp, .abs, 6, false, .unofficial⟩
  | .bne _ => ⟨0xD0, .bne, .rel, 2, false, .official⟩
  | .cmpIzy _ => ⟨0xD1, .cmp, .izy, 5, true, .official⟩
  | .jamD2 => ⟨0xD2, .jam, .imp, 2, false, .jam⟩
  | .dcpIzy _ => ⟨0xD3, .dcp, .izy, 8, false, .unofficial⟩
  | .nopD4 _ => ⟨0xD4, .nop, .zpx, 4, false, .unofficial⟩
  | .cmpZpx _ => ⟨0xD5, .cmp, .zpx, 4, false, .official⟩
  | .decZpx _ => ⟨0xD6, .dec, .zpx, 6, false, .official⟩
  | .dcpZpx _ => ⟨0xD7, .dcp, .zpx, 6, false, .unofficial⟩
  | .cld => ⟨0xD8, .cld, .imp, 2, false, .official⟩
  | .cmpAby _ => ⟨0xD9, .cmp, .aby, 4, true, .official⟩
  | .nopDA => ⟨0xDA, .nop, .imp, 2, false, .unofficial⟩
  | .dcpAby _ => ⟨0xDB, .dcp, .aby, 7, false, .unofficial⟩
  | .nopDC _ => ⟨0xDC, .nop, .abx, 4, true, .unofficial⟩
  | .cmpAbx _ => ⟨0xDD, .cmp, .abx, 4, true, .official⟩
  | .decAbx _ => ⟨0xDE, .dec, .abx, 7, false, .official⟩
  | .dcpAbx _ => ⟨0xDF, .dcp, .abx, 7, false, .unofficial⟩
  | .cpxImm _ => ⟨0xE0, .cpx, .imm, 2, false, .official⟩
  | .sbcIzx _ => ⟨0xE1, .sbc, .izx, 6, false, .official⟩
  | .nopE2 _ => ⟨0xE2, .nop, .imm, 2, false, .unofficial⟩
  | .iscIzx _ => ⟨0xE3, .isc, .izx, 8, false, .unofficial⟩
  | .cpxZp _ => ⟨0xE4, .cpx, .zp, 3, false, .official⟩
  | .sbcZp _ => ⟨0xE5, .sbc, .zp, 3, false, .official⟩
  | .incZp _ => ⟨0xE6, .inc, .zp, 5, false, .official⟩
  | .iscZp _ => ⟨0xE7, .isc, .zp, 5, false, .unofficial⟩
  | .inx => ⟨0xE8, .inx, .imp, 2, false, .official⟩
  | .sbcImm _ => ⟨0xE9, .sbc, .imm, 2, false, .official⟩
  | .nop => ⟨0xEA, .nop, .imp, 2, false, .official⟩
  | .sbcEB _ => ⟨0xEB, .sbc, .imm, 2, false, .unofficial⟩
  | .cpxAbs _ => ⟨0xEC, .cpx, .abs, 4, false, .official⟩
  | .sbcAbs _ => ⟨0xED, .sbc, .abs, 4, false, .official⟩
  | .incAbs _ => ⟨0xEE, .inc, .abs, 6, false, .official⟩
  | .iscAbs _ => ⟨0xEF, .isc, .abs, 6, false, .unofficial⟩
  | .beq _ => ⟨0xF0, .beq, .rel, 2, false, .official⟩
  | .sbcIzy _ => ⟨0xF1, .sbc, .izy, 5, true, .official⟩
  | .jamF2 => ⟨0xF2, .jam, .imp, 2, false, .jam⟩
  | .iscIzy _ => ⟨0xF3, .isc, .izy, 8, false, .unofficial⟩
  | .nopF4 _ => ⟨0xF4, .nop, .zpx, 4, false, .unofficial⟩
  | .sbcZpx _ => ⟨0xF5, .sbc, .zpx, 4, false, .official⟩
  | .incZpx _ => ⟨0xF6, .inc, .zpx, 6, false, .official⟩
  | .iscZpx _ => ⟨0xF7, .isc, .zpx, 6, false, .unofficial⟩
  | .sed => ⟨0xF8, .sed, .imp, 2, false, .official⟩
  | .sbcAby _ => ⟨0xF9, .sbc, .aby, 4, true, .official⟩
  | .nopFA => ⟨0xFA, .nop, .imp, 2, false, .unofficial⟩
  | .iscAby _ => ⟨0xFB, .isc, .aby, 7, false, .unofficial⟩
  | .nopFC _ => ⟨0xFC, .nop, .abx, 4, true, .unofficial⟩
  | .sbcAbx _ => ⟨0xFD, .sbc, .abx, 4, true, .official⟩
  | .incAbx _ => ⟨0xFE, .inc, .abx, 7, false, .official⟩
  | .iscAbx _ => ⟨0xFF, .isc, .abx, 7, false, .unofficial⟩

/-- The instruction's mnemonic (R172). -/
def Instr.mnemonic (i : Instr) : Mnemonic := i.row.mnemonic

/-- The instruction's length in bytes, a function of its mode alone (R161, R168). -/
def Instr.length (i : Instr) : Nat := i.row.mode.length

/-- The row raises Fault(F1) when executed (R170). -/
def Status.faults (t : Status) : Bool :=
  match t with
  | .official | .unofficial => false
  | .jam | .unstable => true

/-- The instruction's row raises Fault(F1) (R170). -/
def Instr.faults (i : Instr) : Bool := i.row.status.faults

/-- The operand each instruction holds, in the form of its row's mode (R161). -/
def Instr.operand (i : Instr) : Operand :=
  match i with
  | .brk | .jam02 | .php | .jam12 | .clc | .nop1A | .jam22 | .plp
  | .jam32 | .sec | .nop3A | .rti | .jam42 | .pha | .jam52 | .cli
  | .nop5A | .rts | .jam62 | .pla | .jam72 | .sei | .nop7A | .dey
  | .txa | .jam92 | .tya | .txs | .tay | .tax | .jamB2 | .clv
  | .tsx | .iny | .dex | .jamD2 | .cld | .nopDA | .inx | .nop
  | .jamF2 | .sed | .nopFA => .imp
  | .aslAcc | .rolAcc | .lsrAcc | .rorAcc => .value .acc
  | .oraImm v | .anc0B v | .andImm v | .anc2B v | .eorImm v | .alrImm v | .adcImm v | .arrImm v
  | .nop80 v | .nop82 v | .nop89 v | .xaaImm v | .ldyImm v | .ldxImm v | .ldaImm v | .lxaImm v
  | .cpyImm v | .nopC2 v | .cmpImm v | .axsImm v | .cpxImm v | .nopE2 v | .sbcImm v | .sbcEB v => .value (.imm v)
  | .nop04 z | .oraZp z | .aslZp z | .sloZp z | .bitZp z | .andZp z | .rolZp z | .rlaZp z
  | .nop44 z | .eorZp z | .lsrZp z | .sreZp z | .nop64 z | .adcZp z | .rorZp z | .rraZp z
  | .styZp z | .staZp z | .stxZp z | .saxZp z | .ldyZp z | .ldaZp z | .ldxZp z | .laxZp z
  | .cpyZp z | .cmpZp z | .decZp z | .dcpZp z | .cpxZp z | .sbcZp z | .incZp z | .iscZp z => .value (.mem (.zp z))
  | .nop14 z | .oraZpx z | .aslZpx z | .sloZpx z | .nop34 z | .andZpx z | .rolZpx z | .rlaZpx z
  | .nop54 z | .eorZpx z | .lsrZpx z | .sreZpx z | .nop74 z | .adcZpx z | .rorZpx z | .rraZpx z
  | .styZpx z | .staZpx z | .ldyZpx z | .ldaZpx z | .nopD4 z | .cmpZpx z | .decZpx z | .dcpZpx z
  | .nopF4 z | .sbcZpx z | .incZpx z | .iscZpx z => .value (.mem (.zpx z))
  | .stxZpy z | .saxZpy z | .ldxZpy z | .laxZpy z => .value (.mem (.zpy z))
  | .bpl d | .bmi d | .bvc d | .bvs d | .bcc d | .bcs d | .bne d | .beq d => .rel d
  | .nop0C a | .oraAbs a | .aslAbs a | .sloAbs a | .jsr a | .bitAbs a | .andAbs a | .rolAbs a
  | .rlaAbs a | .jmpAbs a | .eorAbs a | .lsrAbs a | .sreAbs a | .adcAbs a | .rorAbs a | .rraAbs a
  | .styAbs a | .staAbs a | .stxAbs a | .saxAbs a | .ldyAbs a | .ldaAbs a | .ldxAbs a | .laxAbs a
  | .cpyAbs a | .cmpAbs a | .decAbs a | .dcpAbs a | .cpxAbs a | .sbcAbs a | .incAbs a | .iscAbs a => .value (.mem (.abs a))
  | .nop1C a | .oraAbx a | .aslAbx a | .sloAbx a | .nop3C a | .andAbx a | .rolAbx a | .rlaAbx a
  | .nop5C a | .eorAbx a | .lsrAbx a | .sreAbx a | .nop7C a | .adcAbx a | .rorAbx a | .rraAbx a
  | .shyAbx a | .staAbx a | .ldyAbx a | .ldaAbx a | .nopDC a | .cmpAbx a | .decAbx a | .dcpAbx a
  | .nopFC a | .sbcAbx a | .incAbx a | .iscAbx a => .value (.mem (.abx a))
  | .oraAby a | .sloAby a | .andAby a | .rlaAby a | .eorAby a | .sreAby a | .adcAby a | .rraAby a
  | .staAby a | .tasAby a | .shxAby a | .ahxAby a | .ldaAby a | .lasAby a | .ldxAby a | .laxAby a
  | .cmpAby a | .dcpAby a | .sbcAby a | .iscAby a => .value (.mem (.aby a))
  | .jmpInd p => .ind p
  | .oraIzx z | .sloIzx z | .andIzx z | .rlaIzx z | .eorIzx z | .sreIzx z | .adcIzx z | .rraIzx z
  | .staIzx z | .saxIzx z | .ldaIzx z | .laxIzx z | .cmpIzx z | .dcpIzx z | .sbcIzx z | .iscIzx z => .value (.mem (.izx z))
  | .oraIzy z | .sloIzy z | .andIzy z | .rlaIzy z | .eorIzy z | .sreIzy z | .adcIzy z | .rraIzy z
  | .staIzy z | .ahxIzy z | .ldaIzy z | .laxIzy z | .cmpIzy z | .dcpIzy z | .sbcIzy z | .iscIzy z => .value (.mem (.izy z))

/-- The operand bytes that follow the opcode (R161 to R166). -/
def MemOperand.bytes (m : MemOperand) : List Byte :=
  match m with
  | .zp z | .zpx z | .zpy z | .izx z | .izy z => [z]
  | .abs a | .abx a | .aby a => [loByte a, hiByte a]

/-- The operand bytes that follow the opcode (R161 to R166). -/
def Operand.bytes (o : Operand) : List Byte :=
  match o with
  | .imp => []
  | .value .acc => []
  | .value (.imm v) => [v]
  | .value (.mem m) => m.bytes
  | .rel d => [displacementByte d]
  | .ind p => [loByte p, hiByte p]

/-- Row 0x of the grid R173: the instruction of opcode 0x00 + lo with operand bytes b1 and b2. -/
def decodeRow0 (lo : Nat) (b1 b2 : Byte) : Instr :=
  match lo with
  | 0 => .brk
  | 1 => .oraIzx b1
  | 2 => .jam02
  | 3 => .sloIzx b1
  | 4 => .nop04 b1
  | 5 => .oraZp b1
  | 6 => .aslZp b1
  | 7 => .sloZp b1
  | 8 => .php
  | 9 => .oraImm b1
  | 10 => .aslAcc
  | 11 => .anc0B b1
  | 12 => .nop0C (wordOf b1 b2)
  | 13 => .oraAbs (wordOf b1 b2)
  | 14 => .aslAbs (wordOf b1 b2)
  | _ => .sloAbs (wordOf b1 b2)

/-- Row 1x of the grid R173: the instruction of opcode 0x10 + lo with operand bytes b1 and b2. -/
def decodeRow1 (lo : Nat) (b1 b2 : Byte) : Instr :=
  match lo with
  | 0 => .bpl (displacementOf b1)
  | 1 => .oraIzy b1
  | 2 => .jam12
  | 3 => .sloIzy b1
  | 4 => .nop14 b1
  | 5 => .oraZpx b1
  | 6 => .aslZpx b1
  | 7 => .sloZpx b1
  | 8 => .clc
  | 9 => .oraAby (wordOf b1 b2)
  | 10 => .nop1A
  | 11 => .sloAby (wordOf b1 b2)
  | 12 => .nop1C (wordOf b1 b2)
  | 13 => .oraAbx (wordOf b1 b2)
  | 14 => .aslAbx (wordOf b1 b2)
  | _ => .sloAbx (wordOf b1 b2)

/-- Row 2x of the grid R173: the instruction of opcode 0x20 + lo with operand bytes b1 and b2. -/
def decodeRow2 (lo : Nat) (b1 b2 : Byte) : Instr :=
  match lo with
  | 0 => .jsr (wordOf b1 b2)
  | 1 => .andIzx b1
  | 2 => .jam22
  | 3 => .rlaIzx b1
  | 4 => .bitZp b1
  | 5 => .andZp b1
  | 6 => .rolZp b1
  | 7 => .rlaZp b1
  | 8 => .plp
  | 9 => .andImm b1
  | 10 => .rolAcc
  | 11 => .anc2B b1
  | 12 => .bitAbs (wordOf b1 b2)
  | 13 => .andAbs (wordOf b1 b2)
  | 14 => .rolAbs (wordOf b1 b2)
  | _ => .rlaAbs (wordOf b1 b2)

/-- Row 3x of the grid R173: the instruction of opcode 0x30 + lo with operand bytes b1 and b2. -/
def decodeRow3 (lo : Nat) (b1 b2 : Byte) : Instr :=
  match lo with
  | 0 => .bmi (displacementOf b1)
  | 1 => .andIzy b1
  | 2 => .jam32
  | 3 => .rlaIzy b1
  | 4 => .nop34 b1
  | 5 => .andZpx b1
  | 6 => .rolZpx b1
  | 7 => .rlaZpx b1
  | 8 => .sec
  | 9 => .andAby (wordOf b1 b2)
  | 10 => .nop3A
  | 11 => .rlaAby (wordOf b1 b2)
  | 12 => .nop3C (wordOf b1 b2)
  | 13 => .andAbx (wordOf b1 b2)
  | 14 => .rolAbx (wordOf b1 b2)
  | _ => .rlaAbx (wordOf b1 b2)

/-- Row 4x of the grid R173: the instruction of opcode 0x40 + lo with operand bytes b1 and b2. -/
def decodeRow4 (lo : Nat) (b1 b2 : Byte) : Instr :=
  match lo with
  | 0 => .rti
  | 1 => .eorIzx b1
  | 2 => .jam42
  | 3 => .sreIzx b1
  | 4 => .nop44 b1
  | 5 => .eorZp b1
  | 6 => .lsrZp b1
  | 7 => .sreZp b1
  | 8 => .pha
  | 9 => .eorImm b1
  | 10 => .lsrAcc
  | 11 => .alrImm b1
  | 12 => .jmpAbs (wordOf b1 b2)
  | 13 => .eorAbs (wordOf b1 b2)
  | 14 => .lsrAbs (wordOf b1 b2)
  | _ => .sreAbs (wordOf b1 b2)

/-- Row 5x of the grid R173: the instruction of opcode 0x50 + lo with operand bytes b1 and b2. -/
def decodeRow5 (lo : Nat) (b1 b2 : Byte) : Instr :=
  match lo with
  | 0 => .bvc (displacementOf b1)
  | 1 => .eorIzy b1
  | 2 => .jam52
  | 3 => .sreIzy b1
  | 4 => .nop54 b1
  | 5 => .eorZpx b1
  | 6 => .lsrZpx b1
  | 7 => .sreZpx b1
  | 8 => .cli
  | 9 => .eorAby (wordOf b1 b2)
  | 10 => .nop5A
  | 11 => .sreAby (wordOf b1 b2)
  | 12 => .nop5C (wordOf b1 b2)
  | 13 => .eorAbx (wordOf b1 b2)
  | 14 => .lsrAbx (wordOf b1 b2)
  | _ => .sreAbx (wordOf b1 b2)

/-- Row 6x of the grid R173: the instruction of opcode 0x60 + lo with operand bytes b1 and b2. -/
def decodeRow6 (lo : Nat) (b1 b2 : Byte) : Instr :=
  match lo with
  | 0 => .rts
  | 1 => .adcIzx b1
  | 2 => .jam62
  | 3 => .rraIzx b1
  | 4 => .nop64 b1
  | 5 => .adcZp b1
  | 6 => .rorZp b1
  | 7 => .rraZp b1
  | 8 => .pla
  | 9 => .adcImm b1
  | 10 => .rorAcc
  | 11 => .arrImm b1
  | 12 => .jmpInd (wordOf b1 b2)
  | 13 => .adcAbs (wordOf b1 b2)
  | 14 => .rorAbs (wordOf b1 b2)
  | _ => .rraAbs (wordOf b1 b2)

/-- Row 7x of the grid R173: the instruction of opcode 0x70 + lo with operand bytes b1 and b2. -/
def decodeRow7 (lo : Nat) (b1 b2 : Byte) : Instr :=
  match lo with
  | 0 => .bvs (displacementOf b1)
  | 1 => .adcIzy b1
  | 2 => .jam72
  | 3 => .rraIzy b1
  | 4 => .nop74 b1
  | 5 => .adcZpx b1
  | 6 => .rorZpx b1
  | 7 => .rraZpx b1
  | 8 => .sei
  | 9 => .adcAby (wordOf b1 b2)
  | 10 => .nop7A
  | 11 => .rraAby (wordOf b1 b2)
  | 12 => .nop7C (wordOf b1 b2)
  | 13 => .adcAbx (wordOf b1 b2)
  | 14 => .rorAbx (wordOf b1 b2)
  | _ => .rraAbx (wordOf b1 b2)

/-- Row 8x of the grid R173: the instruction of opcode 0x80 + lo with operand bytes b1 and b2. -/
def decodeRow8 (lo : Nat) (b1 b2 : Byte) : Instr :=
  match lo with
  | 0 => .nop80 b1
  | 1 => .staIzx b1
  | 2 => .nop82 b1
  | 3 => .saxIzx b1
  | 4 => .styZp b1
  | 5 => .staZp b1
  | 6 => .stxZp b1
  | 7 => .saxZp b1
  | 8 => .dey
  | 9 => .nop89 b1
  | 10 => .txa
  | 11 => .xaaImm b1
  | 12 => .styAbs (wordOf b1 b2)
  | 13 => .staAbs (wordOf b1 b2)
  | 14 => .stxAbs (wordOf b1 b2)
  | _ => .saxAbs (wordOf b1 b2)

/-- Row 9x of the grid R173: the instruction of opcode 0x90 + lo with operand bytes b1 and b2. -/
def decodeRow9 (lo : Nat) (b1 b2 : Byte) : Instr :=
  match lo with
  | 0 => .bcc (displacementOf b1)
  | 1 => .staIzy b1
  | 2 => .jam92
  | 3 => .ahxIzy b1
  | 4 => .styZpx b1
  | 5 => .staZpx b1
  | 6 => .stxZpy b1
  | 7 => .saxZpy b1
  | 8 => .tya
  | 9 => .staAby (wordOf b1 b2)
  | 10 => .txs
  | 11 => .tasAby (wordOf b1 b2)
  | 12 => .shyAbx (wordOf b1 b2)
  | 13 => .staAbx (wordOf b1 b2)
  | 14 => .shxAby (wordOf b1 b2)
  | _ => .ahxAby (wordOf b1 b2)

/-- Row Ax of the grid R173: the instruction of opcode 0xA0 + lo with operand bytes b1 and b2. -/
def decodeRowA (lo : Nat) (b1 b2 : Byte) : Instr :=
  match lo with
  | 0 => .ldyImm b1
  | 1 => .ldaIzx b1
  | 2 => .ldxImm b1
  | 3 => .laxIzx b1
  | 4 => .ldyZp b1
  | 5 => .ldaZp b1
  | 6 => .ldxZp b1
  | 7 => .laxZp b1
  | 8 => .tay
  | 9 => .ldaImm b1
  | 10 => .tax
  | 11 => .lxaImm b1
  | 12 => .ldyAbs (wordOf b1 b2)
  | 13 => .ldaAbs (wordOf b1 b2)
  | 14 => .ldxAbs (wordOf b1 b2)
  | _ => .laxAbs (wordOf b1 b2)

/-- Row Bx of the grid R173: the instruction of opcode 0xB0 + lo with operand bytes b1 and b2. -/
def decodeRowB (lo : Nat) (b1 b2 : Byte) : Instr :=
  match lo with
  | 0 => .bcs (displacementOf b1)
  | 1 => .ldaIzy b1
  | 2 => .jamB2
  | 3 => .laxIzy b1
  | 4 => .ldyZpx b1
  | 5 => .ldaZpx b1
  | 6 => .ldxZpy b1
  | 7 => .laxZpy b1
  | 8 => .clv
  | 9 => .ldaAby (wordOf b1 b2)
  | 10 => .tsx
  | 11 => .lasAby (wordOf b1 b2)
  | 12 => .ldyAbx (wordOf b1 b2)
  | 13 => .ldaAbx (wordOf b1 b2)
  | 14 => .ldxAby (wordOf b1 b2)
  | _ => .laxAby (wordOf b1 b2)

/-- Row Cx of the grid R173: the instruction of opcode 0xC0 + lo with operand bytes b1 and b2. -/
def decodeRowC (lo : Nat) (b1 b2 : Byte) : Instr :=
  match lo with
  | 0 => .cpyImm b1
  | 1 => .cmpIzx b1
  | 2 => .nopC2 b1
  | 3 => .dcpIzx b1
  | 4 => .cpyZp b1
  | 5 => .cmpZp b1
  | 6 => .decZp b1
  | 7 => .dcpZp b1
  | 8 => .iny
  | 9 => .cmpImm b1
  | 10 => .dex
  | 11 => .axsImm b1
  | 12 => .cpyAbs (wordOf b1 b2)
  | 13 => .cmpAbs (wordOf b1 b2)
  | 14 => .decAbs (wordOf b1 b2)
  | _ => .dcpAbs (wordOf b1 b2)

/-- Row Dx of the grid R173: the instruction of opcode 0xD0 + lo with operand bytes b1 and b2. -/
def decodeRowD (lo : Nat) (b1 b2 : Byte) : Instr :=
  match lo with
  | 0 => .bne (displacementOf b1)
  | 1 => .cmpIzy b1
  | 2 => .jamD2
  | 3 => .dcpIzy b1
  | 4 => .nopD4 b1
  | 5 => .cmpZpx b1
  | 6 => .decZpx b1
  | 7 => .dcpZpx b1
  | 8 => .cld
  | 9 => .cmpAby (wordOf b1 b2)
  | 10 => .nopDA
  | 11 => .dcpAby (wordOf b1 b2)
  | 12 => .nopDC (wordOf b1 b2)
  | 13 => .cmpAbx (wordOf b1 b2)
  | 14 => .decAbx (wordOf b1 b2)
  | _ => .dcpAbx (wordOf b1 b2)

/-- Row Ex of the grid R173: the instruction of opcode 0xE0 + lo with operand bytes b1 and b2. -/
def decodeRowE (lo : Nat) (b1 b2 : Byte) : Instr :=
  match lo with
  | 0 => .cpxImm b1
  | 1 => .sbcIzx b1
  | 2 => .nopE2 b1
  | 3 => .iscIzx b1
  | 4 => .cpxZp b1
  | 5 => .sbcZp b1
  | 6 => .incZp b1
  | 7 => .iscZp b1
  | 8 => .inx
  | 9 => .sbcImm b1
  | 10 => .nop
  | 11 => .sbcEB b1
  | 12 => .cpxAbs (wordOf b1 b2)
  | 13 => .sbcAbs (wordOf b1 b2)
  | 14 => .incAbs (wordOf b1 b2)
  | _ => .iscAbs (wordOf b1 b2)

/-- Row Fx of the grid R173: the instruction of opcode 0xF0 + lo with operand bytes b1 and b2. -/
def decodeRowF (lo : Nat) (b1 b2 : Byte) : Instr :=
  match lo with
  | 0 => .beq (displacementOf b1)
  | 1 => .sbcIzy b1
  | 2 => .jamF2
  | 3 => .iscIzy b1
  | 4 => .nopF4 b1
  | 5 => .sbcZpx b1
  | 6 => .incZpx b1
  | 7 => .iscZpx b1
  | 8 => .sed
  | 9 => .sbcAby (wordOf b1 b2)
  | 10 => .nopFA
  | 11 => .iscAby (wordOf b1 b2)
  | 12 => .nopFC (wordOf b1 b2)
  | 13 => .sbcAbx (wordOf b1 b2)
  | 14 => .incAbx (wordOf b1 b2)
  | _ => .iscAbx (wordOf b1 b2)

/-- The instruction of an opcode byte and the two bytes after it; a shorter instruction does not read the bytes it
does not have (R160, R167, R173). -/
def decodeOp (op b1 b2 : Byte) : Instr :=
  match op.toNat / 16 with
  | 0 => decodeRow0 (op.toNat % 16) b1 b2
  | 1 => decodeRow1 (op.toNat % 16) b1 b2
  | 2 => decodeRow2 (op.toNat % 16) b1 b2
  | 3 => decodeRow3 (op.toNat % 16) b1 b2
  | 4 => decodeRow4 (op.toNat % 16) b1 b2
  | 5 => decodeRow5 (op.toNat % 16) b1 b2
  | 6 => decodeRow6 (op.toNat % 16) b1 b2
  | 7 => decodeRow7 (op.toNat % 16) b1 b2
  | 8 => decodeRow8 (op.toNat % 16) b1 b2
  | 9 => decodeRow9 (op.toNat % 16) b1 b2
  | 10 => decodeRowA (op.toNat % 16) b1 b2
  | 11 => decodeRowB (op.toNat % 16) b1 b2
  | 12 => decodeRowC (op.toNat % 16) b1 b2
  | 13 => decodeRowD (op.toNat % 16) b1 b2
  | 14 => decodeRowE (op.toNat % 16) b1 b2
  | _ => decodeRowF (op.toNat % 16) b1 b2

/-- Why a byte string is not an instruction. -/
inductive DecodeError
  /-- there is no opcode byte -/
  | noOpcode
  /-- the operand bytes that the opcode's length calls for are not all there (R174) -/
  | operandBytesMissing
  deriving DecidableEq, Repr

/-- The decoder: the instruction at the head of a byte string and the bytes after it (R160, R167, R174). -/
def decode (bytes : List Byte) : Except DecodeError (Instr × List Byte) :=
  match bytes with
  | [] => .error .noOpcode
  | op :: rest =>
    match (decodeOp op 0 0).length with
    | 1 => .ok (decodeOp op 0 0, rest)
    | 2 =>
      match rest with
      | b1 :: rest' => .ok (decodeOp op b1 0, rest')
      | [] => .error .operandBytesMissing
    | _ =>
      match rest with
      | b1 :: b2 :: rest' => .ok (decodeOp op b1 b2, rest')
      | _ => .error .operandBytesMissing

/-- The encoder: the bytes of an instruction, the opcode of its row and then its operand bytes (R160, R161). -/
def encode (i : Instr) : List Byte := i.row.opcode :: i.operand.bytes

/-- The three bytes, at rising addresses, of an instruction whose bits are `w` numbered as the opcode table numbers
them; the bits from `nbits` up are zero. -/
def tableBytes (nbits w : Nat) : List Byte :=
  let v := w % 2 ^ nbits
  [BitVec.ofNat 8 v, BitVec.ofNat 8 (v / 256), BitVec.ofNat 8 (v / 65536)]

/-- The instruction the decoder reads from an opcode-table word. -/
def decodeTableWord (nbits w : Nat) : Option Instr :=
  match decode (tableBytes nbits w) with
  | .ok (i, _) => some i
  | .error _ => none

end Sys2Proof
end

