-- ==== Sys2Proof/Config.lean ====
section
/-! DEFINITION. What the source leaves to an implementation (00_scope.md R9) and the free values.

The open parameters that are plain data (`INT_ENTRY_CYCLES`, `PRG_RAM_PRESENT`, `SPRITE_ORDER`, `FS_STEP_CYCLES`) are
the record `Params`, which the state carries and no step changes: a statement about every state is a statement about
every value of them (log entry 3). The open parameters that are functions (`MIX`, `SAMPLE_DUE`, `RGB_PALETTE`) and
the oracle `draw()` are constants with no body: nothing in Lean can evaluate them (log entries 4, 5 and 6). -/

namespace Sys2Proof

/-- `SPRITE_ORDER`: the order in which the compositor visits sprites 0 to 63 (R9, R498). -/
inductive SpriteOrder
  | ascending
  | descending
  deriving DecidableEq, Repr

/-- The open parameters of 00_scope.md R9 that are plain data. -/
structure Params where
  /-- `INT_ENTRY_CYCLES`: cycles charged for an NMI, IRQ or RESET entry (R707). -/
  intEntryCycles : Nat
  /-- `PRG_RAM_PRESENT`: whether 0x6000–0x7FFF is RAM (R107). -/
  prgRamPresent : Bool
  /-- `SPRITE_ORDER` (R498). -/
  spriteOrder : SpriteOrder
  /-- `FS_STEP_CYCLES`: CPU cycles between two steps of the frame sequencer (R560). -/
  fsStepCycles : Nat
  deriving DecidableEq, Repr

/-- The five channel outputs `(sq1, sq2, tri, noise, dmc)` that `MIX` is applied to (47_apu.md R615, R617). -/
structure Outputs where
  sq1 : BitVec 4
  sq2 : BitVec 4
  tri : BitVec 4
  noise : BitVec 4
  dmc : BitVec 7
  deriving DecidableEq, Repr

/-- One mixed sample value. DESIGN CHOICE (log entry 5): the source gives samples no type; an integer stands for one. -/
abbrev Sample := Int

/-- One entry of `RGB_PALETTE` (R684). DESIGN CHOICE (log entry 6): three bytes; the source gives RGB values no width. -/
structure Rgb where
  red : Byte
  green : Byte
  blue : Byte
  deriving DecidableEq, Repr, Inhabited

/-- `draw()` of R14: the k-th byte the oracle gives. A free value: no body, so every value is admitted. -/
opaque Config.freeByte : Nat → Byte

/-- `MIX` of R615: the mixer, an open parameter. -/
opaque Config.mix : Outputs → Sample

/-- `SAMPLE_DUE` of R616: whether the gap that begins after the sample of this APU cycle is 41 cycles and not 40. -/
opaque Config.longGap : Nat → Bool

/-- `RGB_PALETTE` of R684: the host's RGB value of each of the 64 colour indices, an open parameter. -/
opaque Config.rgbPalette : BitVec 6 → Rgb

end Sys2Proof
end

