-- ==== Sys2Proof/Machine/State.lean ====
section
/-! DEFINITION. The state of the machine as plain data (10_state.md R30 to R64), the reasons a step stops
(60_exceptions.md R700), and the state after the power-on RESET (70_reset_and_hazards.md R751). -/

namespace Sys2Proof.Machine

/-! ## Stores -/

/-- A sparse store: pairs of an index and a value, the indices strictly rising, no value equal to the one that an
index with no pair reads as. -/
abbrev Cells (α : Type) := List (Nat × α)

/-- A store of bytes. -/
abbrev Memory := List Host.Cell

/-- The byte that an index with no pair reads as. DESIGN CHOICE (log entry 1): 0. -/
def Memory.unlisted : Byte := 0

/-- The canonical form from index `lo` up: indices at least `lo` and strictly rising, no value equal to `d`. -/
def Cells.wfFrom {α : Type} [DecidableEq α] (d : α) (lo : Nat) (m : Cells α) : Bool :=
  match m with
  | [] => true
  | (k, v) :: m => decide (lo ≤ k) && decide (v ≠ d) && Cells.wfFrom d (k + 1) m

/-- The canonical form of a store whose unlisted indices read as `d`. -/
def Cells.wf {α : Type} [DecidableEq α] (d : α) (m : Cells α) : Bool := Cells.wfFrom d 0 m

/-- The canonical form of a store of bytes. -/
def Memory.wf (m : Memory) : Bool := Cells.wf Memory.unlisted m

/-! ## CPU (10_state.md §1) -/

/-- The CPU registers, the six flags of P (R33: bits 5 and 4 have no storage, R34) and `cpu.in_nmi` (R39). -/
structure Cpu where
  a : Byte
  x : Byte
  y : Byte
  sp : Byte
  pc : Word
  n : Bool
  v : Bool
  d : Bool
  i : Bool
  z : Bool
  c : Bool
  inNmi : Bool
  deriving DecidableEq, Repr

/-- The counters of the composition root (R40). -/
structure Emu where
  totalCycles : Nat
  instrCount : Nat
  pendingCycles : Nat
  deriving DecidableEq, Repr

/-- The OAM-DMA state (R42). -/
structure Bus where
  dmaPending : Bool
  dmaPage : Byte
  deriving DecidableEq, Repr

/-! ## PPU (10_state.md §4) -/

/-- The PPU state (R45 to R56). `color` and `bgt` are indexed by 256 · line + dot (R53). -/
structure Ppu where
  /-- PPUCTRL (R45) -/
  ctrl : Byte
  /-- PPUMASK (R46) -/
  mask : Byte
  /-- PPUSTATUS bit 7 (R47) -/
  vblank : Bool
  /-- PPUSTATUS bit 6 (R47) -/
  s0hit : Bool
  /-- OAMADDR (R48) -/
  oamaddr : Byte
  /-- the current address (R49) -/
  v : BitVec 15
  /-- the temporary address (R49) -/
  t : BitVec 15
  /-- fine X (R49) -/
  x : BitVec 3
  /-- the write toggle: true when the second write of a pair is awaited (R49) -/
  w : Bool
  /-- the PPUDATA read buffer (R50) -/
  rdbuf : Byte
  /-- the line counter, 0 to 261 (R51) -/
  lines : Nat
  /-- the dot counter, 0 to 340 (R51) -/
  dots : Nat
  /-- the fine column counter (R52) -/
  fx : BitVec 3
  /-- the picture: 6-bit colour indices; an unlisted pixel reads 0 (R53) -/
  color : Cells (BitVec 6)
  /-- the background-transparent flags; an unlisted pixel reads true (R53) -/
  bgt : Cells Bool
  /-- OAM, 256 bytes (R54) -/
  oam : Memory
  /-- the nametable store, 4096 bytes (R56) -/
  nt : Memory
  /-- palette RAM, 32 entries of 6 bits (R56) -/
  pal : Cells (BitVec 6)
  deriving DecidableEq, Repr

/-! ## APU (10_state.md §5) -/

/-- The envelope part of a square or noise channel: `halt`, `const`, `vol`, `env_start`, `env_div`, `env_decay`
(R57, R59). -/
structure Envelope where
  halt : Bool
  const : Bool
  vol : BitVec 4
  start : Bool
  div : BitVec 4
  decay : BitVec 4
  deriving DecidableEq, Repr

/-- A square channel (R57). -/
structure Square where
  duty : BitVec 2
  env : Envelope
  swEn : Bool
  swPeriod : BitVec 3
  swNeg : Bool
  swShift : BitVec 3
  period : BitVec 11
  timer : BitVec 11
  seq : BitVec 3
  length : Byte
  swReload : Bool
  swDiv : BitVec 3
  enabled : Bool
  deriving DecidableEq, Repr

/-- The triangle channel (R58). -/
structure Triangle where
  control : Bool
  linReloadVal : BitVec 7
  period : BitVec 11
  timer : BitVec 11
  seq : BitVec 5
  length : Byte
  linear : BitVec 7
  linReload : Bool
  enabled : Bool
  deriving DecidableEq, Repr

/-- The noise channel (R59). -/
structure Noise where
  env : Envelope
  mode : Bool
  periodIdx : BitVec 4
  timer : BitVec 12
  shift : BitVec 15
  length : Byte
  enabled : Bool
  deriving DecidableEq, Repr

/-- The DMC channel (R60). -/
structure Dmc where
  irqEn : Bool
  loop : Bool
  rateIdx : BitVec 4
  level : BitVec 7
  addrReg : Byte
  lenReg : Byte
  curAddr : Word
  remaining : BitVec 12
  buffer : Byte
  bufEmpty : Bool
  shift : Byte
  bitsLeft : BitVec 4
  silence : Bool
  timer : BitVec 9
  deriving DecidableEq, Repr

/-- The frame sequencer (R61). -/
structure FrameSeq where
  /-- 4-step (false) or 5-step (true) -/
  mode : Bool
  irqInhibit : Bool
  counter : Nat
  step : Nat
  deriving DecidableEq, Repr

/-- The APU (R57 to R62). -/
structure Apu where
  sq1 : Square
  sq2 : Square
  tri : Triangle
  noise : Noise
  dmc : Dmc
  fs : FrameSeq
  cycle : Nat
  deriving DecidableEq, Repr

/-! ## Controllers and cassette (10_state.md §6) -/

/-- One controller (R63). -/
structure Pad where
  buttons : Byte
  shift : Byte
  index : Nat
  deriving DecidableEq, Repr

/-- The two controllers and their shared strobe (R63). -/
structure Ctl where
  pad0 : Pad
  pad1 : Pad
  strobe : Bool
  deriving DecidableEq, Repr

/-- The nametable mirroring of the cassette (R64). -/
inductive Mirroring
  | horizontal
  | vertical
  deriving DecidableEq, Repr

/-- The cassette (R64): `cart.prg` of 16384 · `prgBanks` bytes and `cart.chr` of 8192 · `chrBanks` bytes. -/
structure Cart where
  prg : Memory
  prgBanks : Nat
  chr : Memory
  chrBanks : Nat
  mirroring : Mirroring
  deriving DecidableEq, Repr

/-! ## The whole state -/

/-- The state of the machine. The last group is the model's own (log entries 3, 4, 5 and 8): the open parameters, how
many bytes the oracle `draw()` has given, and what the spec's `cpu.run` and `step` return or hand to the host. -/
structure State where
  cpu : Cpu
  emu : Emu
  /-- `sys.wram`, 2048 bytes (R41) -/
  wram : Memory
  /-- `sys.prg_ram`, 8192 bytes (R43) -/
  prgRam : Memory
  bus : Bus
  ppu : Ppu
  apu : Apu
  ctl : Ctl
  cart : Cart
  /-- the open parameters of R9 that are data; no step changes them -/
  params : Params
  /-- how many bytes `draw()` has given -/
  draws : Nat
  /-- the cycles that the instruction being run returned (`cpu.run`'s result, R677); 0 between steps -/
  insCycles : Nat
  /-- the last step completed a frame (`step()`'s result, R670) -/
  frameDone : Bool
  /-- the APU cycles until the next sample is due (the position in the schedule `SAMPLE_DUE`, R616) -/
  sampleIn : Nat
  /-- the samples handed to the host callback by the last `step` or `stepFrame`, oldest first (R616, R681) -/
  samples : List Sample
  deriving DecidableEq, Repr

/-! ## Why a step stops -/

/-- The faults of R700. Each one but the last two holds the PC of the instruction being executed (of the next
instruction, for F3), the address of the faulting access where there is one, and the state at the faulting access:
every write made before it stands (R701). All are SAFE: the spec itself stops the machine there (R14). -/
inductive Fault
  /-- F1, unimplemented opcode: raised by the meanings of the 12 JAM and the 8 unstable opcodes (R397 to R404). Safe. -/
  | f1UnimplementedOpcode (pc : Word) (stopped : State)
  /-- F2, read of a PPU port with no read behaviour: raised by a bus read of ports 0, 1, 3, 5, 6 (R420). Safe. -/
  | f2PpuPortRead (pc addr : Word) (stopped : State)
  /-- F3, OAM DMA started with OAMADDR ≠ 0: raised by `runDma` (R121). Safe. -/
  | f3DmaOamAddr (pc : Word) (stopped : State)
  /-- F4, PPUCTRL write with bit 5 set: raised by a bus write of port 0 (R422). Safe. -/
  | f4Sprite8x16 (pc addr : Word) (stopped : State)
  /-- F5, unmapped CPU address: raised by a bus access of 0x4020–0x5FFF, or of 0x6000–0x7FFF without PRG RAM (R107).
  Safe. -/
  | f5Unmapped (pc addr : Word) (stopped : State)
  /-- F6, PRG write past the PRG size: raised by a bus write of 0x8000–0xFFFF (R110). Safe. -/
  | f6PrgBounds (pc addr : Word) (stopped : State)
  /-- F7, CHR access past the CHR size: raised by a PPUDATA access or a renderer fetch; `ppuAddr` is a PPU address
  (R112). Safe. -/
  | f7ChrBounds (pc : Word) (ppuAddr : Nat) (stopped : State)
  /-- F8, malformed cartridge: raised by `initialize`, before there is a state (R640). Safe. -/
  | f8MalformedCartridge
  /-- F9, unsupported cartridge: raised by `initialize`, before there is a state (R640). Safe. -/
  | f9UnsupportedCartridge
  deriving DecidableEq, Repr

/-- Why an instruction has no meaning here. -/
inductive Refusal
  /-- the instruction of this mnemonic is not modelled: raised by a refused arm of `exec`; there is none. Safe. -/
  | notModelled (mnemonic : String)
  deriving DecidableEq, Repr

/-! ## Power-on and reset -/

/-- A square channel at power-on: every field 0 (R91). -/
def Square.powerOn : Square :=
  { duty := 0, env := { halt := false, const := false, vol := 0, start := false, div := 0, decay := 0 },
    swEn := false, swPeriod := 0, swNeg := false, swShift := 0, period := 0, timer := 0, seq := 0, length := 0,
    swReload := false, swDiv := 0, enabled := false }

/-- The APU at power-on: every field 0, but noise.shift = 1, dmc.buf_empty and dmc.silence true, dmc.bits_left = 8
(R91). -/
def Apu.powerOn : Apu :=
  { sq1 := Square.powerOn
    sq2 := Square.powerOn
    tri := { control := false, linReloadVal := 0, period := 0, timer := 0, seq := 0, length := 0, linear := 0,
             linReload := false, enabled := false }
    noise := { env := { halt := false, const := false, vol := 0, start := false, div := 0, decay := 0 },
               mode := false, periodIdx := 0, timer := 0, shift := 1, length := 0, enabled := false }
    dmc := { irqEn := false, loop := false, rateIdx := 0, level := 0, addrReg := 0, lenReg := 0, curAddr := 0,
             remaining := 0, buffer := 0, bufEmpty := true, shift := 0, bitsLeft := 8, silence := true, timer := 0 }
    fs := { mode := false, irqInhibit := false, counter := 0, step := 0 }
    cycle := 0 }

/-- The controllers at power-on: all 0 (R91). -/
def Ctl.powerOn : Ctl :=
  { pad0 := { buttons := 0, shift := 0, index := 0 }, pad1 := { buttons := 0, shift := 0, index := 0 },
    strobe := false }

/-- The cassette of `State.reset`. DESIGN CHOICE (log entry 2): a cartridge of two PRG banks and one CHR bank whose
every byte is 0, with horizontal mirroring. -/
def Cart.blank : Cart := { prg := [], prgBanks := 2, chr := [], chrBanks := 1, mirroring := .horizontal }

/-- The open parameters of `State.reset`. PRESUMED (log entry 3): the physical console's 7 entry cycles, sprite
priority and 7457-cycle sequencer step; DESIGN CHOICE (log entry 3): PRG RAM is present. -/
def Params.atReset : Params :=
  { intEntryCycles := 7, prgRamPresent := true, spriteOrder := .descending, fsStepCycles := 7457 }

/-- The machine right after the power-on RESET (R751), for the launch record whose every value is 0 (DESIGN CHOICE,
log entry 1) and the cassette `Cart.blank`: SP is the launch SP less 3, the three pushed bytes are 0x00, 0x00 and 0x20,
I is 1, PC is the RESET vector of the blank cassette, and the entry's cycles are pending (R750). -/
def State.reset : State :=
  { cpu := { a := 0, x := 0, y := 0, sp := 0xFD, pc := 0, n := false, v := false, d := false, i := true, z := false,
             c := false, inNmi := false }
    emu := { totalCycles := 0, instrCount := 0, pendingCycles := 7 }
    wram := [(0x1FE, 0x20)]
    prgRam := []
    bus := { dmaPending := false, dmaPage := 0 }
    ppu := { ctrl := 0, mask := 0, vblank := false, s0hit := false, oamaddr := 0, v := 0, t := 0, x := 0, w := false,
             rdbuf := 0, lines := 0, dots := 0, fx := 0, color := [], bgt := [], oam := [], nt := [], pal := [] }
    apu := Apu.powerOn
    ctl := Ctl.powerOn
    cart := Cart.blank
    params := Params.atReset
    draws := 0
    insCycles := 0
    frameDone := false
    sampleIn := 40
    samples := [] }

end Sys2Proof.Machine
end

