-- ==== Sys2Proof/Machine/Ops.lean ====
section
/-! DEFINITION. The named operations over stores and registers, the outcome of an access, the oracle `draw()`, the
stack, and taking an interrupt (60_exceptions.md R703) with the return from it (43_control_flow.md R345). -/

namespace Sys2Proof.Machine

/-! ## The outcome of an operation -/

/-- What an operation answers: a value and the state after it, or the fault it stops at (00_scope.md R14). -/
inductive Res (α : Type)
  | ok (a : α) (s : State)
  | fault (f : Fault)
  deriving DecidableEq, Repr

/-- Run `f` on the value and the state, unless there was a fault (R14: a fault aborts, nothing after it happens). -/
def Res.bind {α β : Type} (r : Res α) (f : α → State → Res β) : Res β :=
  match r with
  | .ok a s => f a s
  | .fault e => .fault e

/-- The step outcome of an operation whose value is not used. -/
def Res.outcome {α : Type} (r : Res α) : Host.Outcome State Fault Refusal :=
  match r with
  | .ok _ s => .next s
  | .fault e => .fault e

/-- Run `f` for each element of a list in order (R15: pseudocode is sequential). -/
def Res.forEach {α : Type} (f : α → State → Res Unit) (l : List α) (s : State) : Res Unit :=
  match l with
  | [] => .ok () s
  | a :: l => (f a s).bind fun _ s => Res.forEach f l s

/-! ## Stores -/

/-- The value at index `a`: its pair's, or `d` where it has none. -/
def Cells.read {α : Type} (d : α) (m : Cells α) (a : Nat) : α :=
  match m with
  | [] => d
  | (k, v) :: m => if k = a then v else Cells.read d m a

/-- The store with `v` at index `a`, in canonical form: writing `d` takes the pair out. -/
def Cells.write {α : Type} [DecidableEq α] (d : α) (m : Cells α) (a : Nat) (v : α) : Cells α :=
  match m with
  | [] => if v = d then [] else [(a, v)]
  | (k, w) :: m =>
    if a < k then (if v = d then (k, w) :: m else (a, v) :: (k, w) :: m)
    else if a = k then (if v = d then m else (a, v) :: m)
    else (k, w) :: Cells.write d m a v

/-- The byte at index `a` of a store of bytes. -/
def Memory.read (m : Memory) (a : Nat) : Byte := Cells.read Memory.unlisted m a

/-- The store of bytes with `b` at index `a`. -/
def Memory.write (m : Memory) (a : Nat) (b : Byte) : Memory := Cells.write Memory.unlisted m a b

/-! ## Updates of one component -/

def State.mapCpu (f : Cpu → Cpu) (s : State) : State := { s with cpu := f s.cpu }
def State.mapEmu (f : Emu → Emu) (s : State) : State := { s with emu := f s.emu }
def State.mapBus (f : Bus → Bus) (s : State) : State := { s with bus := f s.bus }
def State.mapPpu (f : Ppu → Ppu) (s : State) : State := { s with ppu := f s.ppu }
def State.mapApu (f : Apu → Apu) (s : State) : State := { s with apu := f s.apu }
def State.mapCtl (f : Ctl → Ctl) (s : State) : State := { s with ctl := f s.ctl }
def State.mapCart (f : Cart → Cart) (s : State) : State := { s with cart := f s.cart }
def State.mapWram (f : Memory → Memory) (s : State) : State := { s with wram := f s.wram }
def State.mapPrgRam (f : Memory → Memory) (s : State) : State := { s with prgRam := f s.prgRam }

/-- The cycles that `cpu.run` returns for the instruction being run (R677). -/
def State.setInsCycles (n : Nat) (s : State) : State := { s with insCycles := n }

/-- The samples handed to the host (R616). -/
def State.setSamples (l : List Sample) (s : State) : State := { s with samples := l }

/-- Cycles consumed outside an instruction, charged to the next step (R672). -/
def State.addPending (n : Nat) (s : State) : State :=
  s.mapEmu fun e => { e with pendingCycles := e.pendingCycles + n }

/-! ## The oracle -/

/-- The byte `draw()` gives next: any byte (R14). -/
def drawn (s : State) : Byte := Config.freeByte s.draws

/-- The state after one `draw()`. -/
def State.afterDraw (s : State) : State := { s with draws := s.draws + 1 }

/-! ## Work RAM and PRG ROM as storage -/

/-- The index in `sys.wram` of a CPU address below 0x2000: `addr & 0x07FF` (20_memory.md R104, R105). -/
def wramIndex (addr : Word) : Nat := addr.toNat % 0x800

/-- The byte of work RAM at a CPU address below 0x2000 (R104). -/
def wramRead (s : State) (addr : Word) : Byte := Memory.read s.wram (wramIndex addr)

/-- Store a byte of work RAM (R104). -/
def wramWrite (addr : Word) (b : Byte) (s : State) : State := s.mapWram fun m => Memory.write m (wramIndex addr) b

/-- `|cart.prg|`: 16 KiB a bank (R64). -/
def Cart.prgSize (c : Cart) : Nat := 16384 * c.prgBanks

/-- `|cart.chr|`: 8 KiB a bank (R64). -/
def Cart.chrSize (c : Cart) : Nat := 8192 * c.chrBanks

/-- `readPrgRom(o)`: PRG reads mirror modulo the PRG size (48_controllers_cassette.md R642). -/
def Cart.readPrgRom (c : Cart) (o : Nat) : Byte := Memory.read c.prg (o % c.prgSize)

/-- The byte of PRG ROM at a CPU address from 0x8000 up (R110). -/
def prgRead (s : State) (addr : Word) : Byte := s.cart.readPrgRom (addr.toNat - 0x8000)

/-! ## The status register -/

/-- Six flags and bits 5 and 4 as a byte: `N V b5 b4 D I Z C` (10_state.md R33). -/
def Cpu.statusByte (c : Cpu) (b5 b4 : Bool) : Byte :=
  BitVec.ofBool c.n ++ BitVec.ofBool c.v ++ BitVec.ofBool b5 ++ BitVec.ofBool b4 ++ BitVec.ofBool c.d ++
    BitVec.ofBool c.i ++ BitVec.ofBool c.z ++ BitVec.ofBool c.c

/-- The byte view of P outside a push: bit 5 reads 1 and bit 4 reads 0 (R34). -/
def Cpu.p (c : Cpu) : Byte := c.statusByte true false

/-- `PushedP(b)`: bit 5 is 1 and bit 4 is b (R36). -/
def Cpu.pushedP (c : Cpu) (b : Bool) : Byte := c.statusByte true b

/-- `SetP(byte)`: the six flags from the pulled byte; its bits 5 and 4 are discarded (R37). -/
def Cpu.setP (p : Byte) (c : Cpu) : Cpu :=
  { c with n := p.getLsbD 7, v := p.getLsbD 6, d := p.getLsbD 3, i := p.getLsbD 2, z := p.getLsbD 1, c := p.getLsbD 0 }

/-! ## The stack (41_load_store_transfer.md R250, R251) -/

/-- The stack address `0x0100 + SP` (R31). -/
def stackAddr (sp : Byte) : Word := 0x0100#16 + sp.setWidth 16

/-- `Push(v)`: write at `0x0100 + SP`, then decrement SP modulo 256. Page 1 is always work RAM (R250). -/
def push (b : Byte) (s : State) : State :=
  (wramWrite (stackAddr s.cpu.sp) b s).mapCpu fun c => { c with sp := c.sp - 1 }

/-- The byte that `Pull()` returns: the one at `0x0100 + ((SP + 1) & 0xFF)` (R251). -/
def pulled (s : State) : Byte := wramRead s (stackAddr (s.cpu.sp + 1))

/-- The state after `Pull()`: SP incremented modulo 256 (R251). -/
def afterPull (s : State) : State := s.mapCpu fun c => { c with sp := c.sp + 1 }

/-- Push a 16-bit value, its high byte first (20_memory.md R101, R703). -/
def pushWord (w : Word) (s : State) : State := push (loByte w) (push (hiByte w) s)

/-- The 16-bit value that two pulls return, the low byte first (R344). -/
def pulledWord (s : State) : Word := wordOf (pulled s) (pulled (afterPull s))

/-! ## Interrupts (60_exceptions.md) -/

/-- The four interrupt kinds (R702). -/
inductive IntKind
  | nmi | reset | irq | brk
  deriving DecidableEq, Repr

/-- The address of the low byte of the kind's vector (R702). -/
def IntKind.vector (k : IntKind) : Word :=
  match k with
  | .nmi => 0xFFFA
  | .reset => 0xFFFC
  | .irq => 0xFFFE
  | .brk => 0xFFFE

/-- The pushed B bit: 1 for BRK and 0 for the others (R702). -/
def IntKind.pushesB (k : IntKind) : Bool :=
  match k with
  | .brk => true
  | .nmi | .reset | .irq => false

/-- The kind is NMI, whose entry sets `cpu.in_nmi` (R703). -/
def IntKind.isNmi (k : IntKind) : Bool :=
  match k with
  | .nmi => true
  | .reset | .irq | .brk => false

/-- IRQ and BRK are suppressed when I = 1 or inside an NMI handler; NMI and RESET never are (R704). -/
def IntKind.suppressed (k : IntKind) (c : Cpu) : Bool :=
  match k with
  | .irq | .brk => c.i || c.inNmi
  | .nmi | .reset => false

/-- The cycles an entry charges to `emu.pending_cycles`: none for BRK, whose cycles are its instruction's (R703). -/
def IntKind.entryCycles (k : IntKind) (p : Params) : Nat :=
  match k with
  | .brk => 0
  | .nmi | .reset | .irq => p.intEntryCycles

/-- The address in the kind's vector: two reads of PRG ROM, the low byte first (R702). -/
def vectorTarget (k : IntKind) (s : State) : Word := wordOf (prgRead s k.vector) (prgRead s (k.vector + 1))

/-- `interrupt(kind)` with return address `ret` (R703): push the return address, high byte first, then the status with
the kind's B bit; set I; NMI sets `cpu.in_nmi`; PC is loaded from the vector; the entry's cycles become pending. -/
def interrupt (k : IntKind) (ret : Word) (s : State) : State :=
  let s1 := pushWord ret s
  let s2 := push (s1.cpu.pushedP k.pushesB) s1
  let s3 := s2.mapCpu fun c => { c with i := true, inNmi := c.inNmi || k.isNmi }
  let s4 := s3.mapCpu fun c => { c with pc := vectorTarget k s3 }
  s4.addPending (k.entryCycles s4.params)

/-- The return from an interrupt (R345, R710): the flags from the first pulled byte, PC from the next two, low byte
first and not incremented; `cpu.in_nmi` is cleared. -/
def returnFromInterrupt (s : State) : State :=
  let s1 := (afterPull s).mapCpu (Cpu.setP (pulled s))
  (afterPull (afterPull s1)).mapCpu fun c => { c with pc := pulledWord s1, inNmi := false }

end Sys2Proof.Machine
end

