-- ==== Sys2Proof/Machine/Apu.lean ====
section
/-! DEFINITION. The APU as a function of its own state (47_apu.md): the tables, the channel units, the frame sequencer,
the register writes and the $4015 read, the DMC's output unit, and one CPU cycle of it less the DMC's DMA fetch. -/

namespace Sys2Proof.Machine

/-! ## Tables (R531 to R535) -/

/-- `LENGTH[0..31]` (R531). -/
def lengthTable : List Byte :=
  [10, 254, 20, 2, 40, 4, 80, 6, 160, 8, 60, 10, 14, 12, 26, 14] ++
  [12, 16, 24, 18, 48, 20, 96, 22, 192, 24, 72, 26, 16, 28, 32, 30]

/-- `DUTY[d][0..7]` (R532). -/
def dutyRow (d : BitVec 2) : List Bool :=
  match d.toNat with
  | 0 => [false, true, false, false, false, false, false, false]
  | 1 => [false, true, true, false, false, false, false, false]
  | 2 => [false, true, true, true, true, false, false, false]
  | _ => [true, false, false, true, true, true, true, true]

/-- `TRI[0..31]` (R533). -/
def triTable : List (BitVec 4) :=
  [15, 14, 13, 12, 11, 10, 9, 8, 7, 6, 5, 4, 3, 2, 1, 0] ++ [0, 1, 2, 3, 4, 5, 6, 7, 8, 9, 10, 11, 12, 13, 14, 15]

/-- `NOISE_PERIOD[0..15]`, in CPU cycles (R534). -/
def noisePeriodTable : List Nat := [4, 8, 16, 32, 64, 96, 128, 160, 202, 254, 380, 508, 762, 1016, 2034, 4068]

/-- `DMC_RATE[0..15]`, in CPU cycles (R535). -/
def dmcRateTable : List Nat := [428, 380, 340, 320, 286, 254, 226, 214, 190, 160, 142, 128, 106, 84, 72, 54]

/-- The length that a load value `d >> 3` selects (R531, R573). -/
def lengthOf (d : Byte) : Byte := lengthTable.getD (d.toNat / 8) 0

/-! ## Envelope and length counter (R550 to R552) -/

/-- The envelope clock (R550). -/
def Envelope.clock (e : Envelope) : Envelope :=
  if e.start then { e with start := false, decay := 15, div := e.vol }
  else if e.div = 0 then
    { e with div := e.vol, decay := if e.decay ≠ 0 then e.decay - 1 else if e.halt then 15 else e.decay }
  else { e with div := e.div - 1 }

/-- `EnvOut` (R551). -/
def Envelope.out (e : Envelope) : BitVec 4 := if e.const then e.vol else e.decay

/-- The length counter clock (R552). -/
def lengthClock (halted : Bool) (len : Byte) : Byte := if !halted && len ≠ 0 then len - 1 else len

/-! ## Square channels (R545 to R548) -/

/-- `SquareTimerClock` (R545). -/
def Square.clockTimer (q : Square) : Square :=
  if q.timer = 0 then { q with timer := q.period, seq := q.seq + 1 } else { q with timer := q.timer - 1 }

/-- The sweep target, an integer without wrap; square 1 subtracts one more (ones' complement) (R547). -/
def Square.target (onesComplement : Bool) (q : Square) : Int :=
  let change : Nat := q.period.toNat / 2 ^ q.swShift.toNat
  if q.swNeg then (q.period.toNat : Int) - change - (if onesComplement then 1 else 0)
  else (q.period.toNat : Int) + change

/-- `Muted(sq)` (R547). -/
def Square.muted (onesComplement : Bool) (q : Square) : Bool :=
  decide (q.period.toNat < 8) || decide (q.target onesComplement > 0x7FF)

/-- The sweep clock (R548). -/
def Square.clockSweep (onesComplement : Bool) (q : Square) : Square :=
  let q1 :=
    if q.swDiv = 0 ∧ q.swEn = true ∧ q.swShift ≠ 0 ∧ q.muted onesComplement = false then
      { q with period := BitVec.ofInt 11 (q.target onesComplement) }
    else q
  if q.swDiv = 0 ∨ q.swReload = true then { q1 with swDiv := q1.swPeriod, swReload := false }
  else { q1 with swDiv := q1.swDiv - 1 }

/-- The square output (R546). -/
def Square.out (onesComplement : Bool) (q : Square) : BitVec 4 :=
  if q.length = 0 ∨ q.muted onesComplement = true ∨ (dutyRow q.duty).getD q.seq.toNat false = false then 0
  else q.env.out

/-- The quarter-frame clock of a square: its envelope (R563). -/
def Square.quarter (q : Square) : Square := { q with env := q.env.clock }

/-- The length clock of a square (R552). -/
def Square.clockLength (q : Square) : Square := { q with length := lengthClock q.env.halt q.length }

/-! ## Triangle channel (R555 to R557) -/

/-- `TriTimerClock` (R555). -/
def Triangle.clockTimer (t : Triangle) : Triangle :=
  if t.timer = 0 then
    { t with timer := t.period, seq := if t.length ≠ 0 ∧ t.linear ≠ 0 then t.seq + 1 else t.seq }
  else { t with timer := t.timer - 1 }

/-- The linear counter clock (R556). -/
def Triangle.clockLinear (t : Triangle) : Triangle :=
  { t with
    linear := if t.linReload then t.linReloadVal else if t.linear ≠ 0 then t.linear - 1 else t.linear
    linReload := if t.control then t.linReload else false }

/-- The length clock of the triangle (R552). -/
def Triangle.clockLength (t : Triangle) : Triangle := { t with length := lengthClock t.control t.length }

/-- The triangle output (R557). DEDUCED (log entry 19): with length 0 it stays the current step, as the channel's own rule
R557 says; R553, which has every channel with length 0 output 0, says otherwise. -/
def Triangle.out (t : Triangle) : BitVec 4 := triTable.getD t.seq.toNat 0

/-! ## Noise channel (R558, R559) -/

/-- The feedback bit of the shift register (R558). -/
def Noise.feedback (n : Noise) : Bool :=
  n.shift.getLsbD 0 ^^ (if n.mode then n.shift.getLsbD 6 else n.shift.getLsbD 1)

/-- `NoiseTimerClock` (R558). -/
def Noise.clockTimer (n : Noise) : Noise :=
  if n.timer = 0 then
    { n with
      timer := BitVec.ofNat 12 (noisePeriodTable.getD n.periodIdx.toNat 0 / 2 - 1)
      shift := BitVec.ofBool n.feedback ++ n.shift.extractLsb' 1 14 }
  else { n with timer := n.timer - 1 }

/-- The quarter-frame clock of the noise channel: its envelope (R563). -/
def Noise.quarter (n : Noise) : Noise := { n with env := n.env.clock }

/-- The length clock of the noise channel (R552). -/
def Noise.clockLength (n : Noise) : Noise := { n with length := lengthClock n.env.halt n.length }

/-- The noise output (R559). -/
def Noise.out (n : Noise) : BitVec 4 := if n.length = 0 ∨ n.shift.getLsbD 0 = true then 0 else n.env.out

/-! ## DMC channel (R600 to R606) -/

/-- `SampleStart()` (R602). -/
def Dmc.sampleStart (d : Dmc) : Dmc :=
  { d with
    curAddr := 0xC000#16 + BitVec.ofNat 16 (64 * d.addrReg.toNat)
    remaining := BitVec.ofNat 12 (16 * d.lenReg.toNat + 1) }

/-- `DmcOutputClock()` (R601). -/
def Dmc.outputClock (d : Dmc) : Dmc :=
  let d1 :=
    if d.silence then d
    else if d.shift.getLsbD 0 then { d with level := if d.level.toNat ≤ 125 then d.level + 2 else d.level }
    else { d with level := if 2 ≤ d.level.toNat then d.level - 2 else d.level }
  let d2 := { d1 with shift := d1.shift >>> 1, bitsLeft := d1.bitsLeft - 1 }
  if d2.bitsLeft = 0 then
    if d2.bufEmpty then { d2 with bitsLeft := 8, silence := true }
    else { d2 with bitsLeft := 8, silence := false, shift := d2.buffer, bufEmpty := true }
  else d2

/-- `DmcTimerClock()` (R600). -/
def Dmc.clockTimer (d : Dmc) : Dmc :=
  if d.timer = 0 then
    Dmc.outputClock { d with timer := BitVec.ofNat 9 (dmcRateTable.getD d.rateIdx.toNat 0 - 1) }
  else { d with timer := d.timer - 1 }

/-- The address after a fetch: 0x8000 after 0xFFFF (R604). -/
def dmcNextAddr (a : Word) : Word := if a = 0xFFFF then 0x8000 else a + 1

/-- The channel after a fetch of byte b: the buffer filled, the address and the count moved on, a looping sample
started again at its end (R603). -/
def Dmc.fetched (b : Byte) (d : Dmc) : Dmc :=
  let d1 := { d with buffer := b, bufEmpty := false, curAddr := dmcNextAddr d.curAddr, remaining := d.remaining - 1 }
  if d1.remaining = 0 ∧ d1.loop = true then d1.sampleStart else d1

/-! ## Frame sequencer (R560 to R563) -/

/-- `QuarterFrame()` (R563). -/
def Apu.quarterFrame (a : Apu) : Apu :=
  { a with sq1 := a.sq1.quarter, sq2 := a.sq2.quarter, tri := a.tri.clockLinear, noise := a.noise.quarter }

/-- `HalfFrame()`: the four length counters, then the two sweeps (R563). -/
def Apu.halfFrame (a : Apu) : Apu :=
  { a with
    sq1 := a.sq1.clockLength.clockSweep true
    sq2 := a.sq2.clockLength.clockSweep false
    tri := a.tri.clockLength
    noise := a.noise.clockLength }

/-- The step clocks a quarter frame: every step of the 4-step mode; 0, 1, 2 and 4 of the 5-step mode (R561, R562). -/
def quarterAt (mode : Bool) (step : Nat) : Bool := if mode then step ≠ 3 else true

/-- The step clocks a half frame: 1 and 3 of the 4-step mode; 1 and 4 of the 5-step mode (R561, R562). -/
def halfAt (mode : Bool) (step : Nat) : Bool := step = 1 || (if mode then step = 4 else step = 3)

/-- `StepEvent(mode, step)`: the quarter frame runs first (R561 to R563). -/
def Apu.stepEvent (mode : Bool) (step : Nat) (a : Apu) : Apu :=
  let a1 := if quarterAt mode step then a.quarterFrame else a
  if halfAt mode step then a1.halfFrame else a1

/-- `FrameSequencerTick()` with `FS_STEP_CYCLES` = n (R560). -/
def Apu.frameTick (n : Nat) (a : Apu) : Apu :=
  if a.fs.counter + 1 ≥ n then
    let a1 := a.stepEvent a.fs.mode a.fs.step
    { a1 with fs := { a1.fs with counter := 0, step := (a.fs.step + 1) % (if a.fs.mode then 5 else 4) } }
  else { a with fs := { a.fs with counter := a.fs.counter + 1 } }

/-- One CPU cycle of the APU up to the DMC fetch check: the sequencer, the triangle and DMC timers, on an odd cycle
the square and noise timers, and the cycle count (R540). -/
def Apu.tick (n : Nat) (a : Apu) : Apu :=
  let a1 := a.frameTick n
  let a2 := { a1 with tri := a1.tri.clockTimer, dmc := a1.dmc.clockTimer }
  let a3 :=
    if a2.cycle % 2 = 1 then
      { a2 with sq1 := a2.sq1.clockTimer, sq2 := a2.sq2.clockTimer, noise := a2.noise.clockTimer }
    else a2
  { a3 with cycle := a3.cycle + 1 }

/-- `Outputs()` (R617). -/
def Apu.outputs (a : Apu) : Outputs :=
  { sq1 := a.sq1.out true, sq2 := a.sq2.out false, tri := a.tri.out, noise := a.noise.out, dmc := a.dmc.level }

/-! ## Register writes (R570 to R585) -/

/-- $4000, $4004, $400C: `halt <- d[5]; const <- d[4]; vol <- d[3:0]` (R570, R577). -/
def Envelope.write (d : Byte) (e : Envelope) : Envelope :=
  { e with halt := d.getLsbD 5, const := d.getLsbD 4, vol := d.setWidth 4 }

/-- An 11-bit period with its low byte replaced (R572, R575). -/
def periodLow (p : BitVec 11) (d : Byte) : BitVec 11 := p.extractLsb' 8 3 ++ d

/-- An 11-bit period with its high three bits replaced (R573, R576). -/
def periodHigh (p : BitVec 11) (d : Byte) : BitVec 11 := d.extractLsb' 0 3 ++ p.extractLsb' 0 8

/-- A write of register r (0 to 3) of a square channel (R570 to R573). PRESUMED (log entry 18): the fourth register's
`seq <- 0; env_start <- 1` happens whether the channel is enabled or not; R573's text leaves open where its `if` ends. -/
def Square.write (r : Nat) (d : Byte) (q : Square) : Square :=
  match r with
  | 0 => { q with duty := d.extractLsb' 6 2, env := q.env.write d }
  | 1 =>
    { q with swEn := d.getLsbD 7, swPeriod := d.extractLsb' 4 3, swNeg := d.getLsbD 3, swShift := d.setWidth 3,
             swReload := true }
  | 2 => { q with period := periodLow q.period d }
  | _ =>
    { q with period := periodHigh q.period d, length := if q.enabled then lengthOf d else q.length, seq := 0,
             env := { q.env with start := true } }

/-- A write of register r (0 to 3) of the triangle channel; $4009 changes nothing (R574 to R576, R583). PRESUMED (log
entry 18): the fourth register's `lin_reload <- 1` happens whether the channel is enabled or not. -/
def Triangle.write (r : Nat) (d : Byte) (t : Triangle) : Triangle :=
  match r with
  | 0 => { t with control := d.getLsbD 7, linReloadVal := d.setWidth 7 }
  | 1 => t
  | 2 => { t with period := periodLow t.period d }
  | _ =>
    { t with period := periodHigh t.period d, length := if t.enabled then lengthOf d else t.length,
             linReload := true }

/-- A write of register r (0 to 3) of the noise channel; $400D changes nothing (R577 to R579, R583). PRESUMED (log entry
18): the fourth register's `env_start <- 1` happens whether the channel is enabled or not. -/
def Noise.write (r : Nat) (d : Byte) (n : Noise) : Noise :=
  match r with
  | 0 => { n with env := n.env.write d }
  | 1 => n
  | 2 => { n with mode := d.getLsbD 7, periodIdx := d.setWidth 4 }
  | _ => { n with length := if n.enabled then lengthOf d else n.length, env := { n.env with start := true } }

/-- A write of register r (0 to 3) of the DMC channel (R580 to R582). -/
def Dmc.write (r : Nat) (d : Byte) (c : Dmc) : Dmc :=
  match r with
  | 0 => { c with irqEn := d.getLsbD 7, loop := d.getLsbD 6, rateIdx := d.setWidth 4 }
  | 1 => { c with level := d.setWidth 7 }
  | 2 => { c with addrReg := d }
  | _ => { c with lenReg := d }

/-- The DMC's part of the $4015 write (R584). -/
def Dmc.enable (on : Bool) (c : Dmc) : Dmc :=
  if on then (if c.remaining = 0 then c.sampleStart else c) else { c with remaining := 0 }

/-- The $4015 write: the channel enables (R584). -/
def Apu.writeEnable (d : Byte) (a : Apu) : Apu :=
  { a with
    sq1 := { a.sq1 with enabled := d.getLsbD 0, length := if d.getLsbD 0 then a.sq1.length else 0 }
    sq2 := { a.sq2 with enabled := d.getLsbD 1, length := if d.getLsbD 1 then a.sq2.length else 0 }
    tri := { a.tri with enabled := d.getLsbD 2, length := if d.getLsbD 2 then a.tri.length else 0 }
    noise := { a.noise with enabled := d.getLsbD 3, length := if d.getLsbD 3 then a.noise.length else 0 }
    dmc := a.dmc.enable (d.getLsbD 4) }

/-- The $4017 write: the frame counter (R585, R564). -/
def Apu.writeFrameCounter (d : Byte) (a : Apu) : Apu :=
  let a1 := { a with fs := { mode := d.getLsbD 7, irqInhibit := d.getLsbD 6, counter := 0, step := 0 } }
  if d.getLsbD 7 then a1.quarterFrame.halfFrame else a1

/-- A write of APU register `0x4000 + r`; the addresses that are not the APU's change nothing (R108, R570 to R585). -/
def Apu.write (r : Nat) (d : Byte) (a : Apu) : Apu :=
  if r < 4 then { a with sq1 := a.sq1.write r d }
  else if r < 8 then { a with sq2 := a.sq2.write (r - 4) d }
  else if r < 12 then { a with tri := a.tri.write (r - 8) d }
  else if r < 16 then { a with noise := a.noise.write (r - 12) d }
  else if r < 20 then { a with dmc := a.dmc.write (r - 16) d }
  else if r = 0x15 then a.writeEnable d
  else if r = 0x17 then a.writeFrameCounter d
  else a

/-- The $4015 read: `{0, 0, r5, dmc, noise, tri, sq2, sq1}`, with no side effect (R586). -/
def Apu.statusByte (a : Apu) (r5 : Bool) : Byte :=
  0#2 ++ BitVec.ofBool r5 ++ BitVec.ofBool (a.dmc.remaining ≠ 0) ++ BitVec.ofBool (a.noise.length ≠ 0) ++
    BitVec.ofBool (a.tri.length ≠ 0) ++ BitVec.ofBool (a.sq2.length ≠ 0) ++ BitVec.ofBool (a.sq1.length ≠ 0)

end Sys2Proof.Machine
end

