-- ==== Sys2Proof/Machine/PpuBus.lean ====
section
/-! DEFINITION. The PPU address space (20_memory.md R111 to R114) and the eight PPU register ports
(45_ppu_registers.md R420 to R434). A PPU address is a natural number below 0x4000 (R115). -/

namespace Sys2Proof.Machine

/-! ## The PPU address map -/

/-- The index in `ppu.nt` of a nametable address 0x2000–0x3EFF: screen s is kept at s & 2 under horizontal mirroring
and at s & 1 under vertical mirroring (R113). -/
def ntIndex (m : Mirroring) (a : Nat) : Nat :=
  let o := (a - 0x2000) % 0x1000
  let s := o / 0x400
  let k := o % 0x400
  match m with
  | .horizontal => (s &&& 2) * 0x400 + k
  | .vertical => (s &&& 1) * 0x400 + k

/-- The index in `ppu.pal` of a palette address: mirrored every 32 bytes, 0x10, 0x14, 0x18 and 0x1C aliased onto 0x00,
0x04, 0x08 and 0x0C (R114). -/
def palIndex (a : Nat) : Nat :=
  let p := a % 0x20
  if p = 0x10 ∨ p = 0x14 ∨ p = 0x18 ∨ p = 0x1C then p - 0x10 else p

/-- The palette entry at a palette address (R114). -/
def Ppu.palRead (p : Ppu) (a : Nat) : BitVec 6 := Cells.read 0 p.pal (palIndex a)

/-- Store a palette entry: the low six bits of the byte (R114). -/
def Ppu.palWrite (a : Nat) (b : Byte) (p : Ppu) : Ppu :=
  { p with pal := Cells.write 0 p.pal (palIndex a) (b.setWidth 6) }

/-- The byte at a PPU address, with no side effect; none where it lies past the CHR size (R111 to R114). -/
def ppuPeek (s : State) (a : Nat) : Option Byte :=
  if a < 0x2000 then
    if a < s.cart.chrSize then some (Memory.read s.cart.chr a) else none
  else if a < 0x3F00 then some (Memory.read s.ppu.nt (ntIndex s.cart.mirroring a))
  else some ((s.ppu.palRead a).setWidth 8)

/-- `PpuRead(a)`: Fault(F7) past the CHR size (R112). -/
def ppuRead (a : Nat) (s : State) : Res Byte :=
  match ppuPeek s a with
  | some b => .ok b s
  | none => .fault (.f7ChrBounds s.cpu.pc a s)

/-- `PpuWrite(a, b)`: Fault(F7) past the CHR size (R112). -/
def ppuWrite (a : Nat) (b : Byte) (s : State) : Res Unit :=
  if a < 0x2000 then
    if a < s.cart.chrSize then .ok () (s.mapCart fun c => { c with chr := Memory.write c.chr a b })
    else .fault (.f7ChrBounds s.cpu.pc a s)
  else if a < 0x3F00 then
    .ok () (s.mapPpu fun p => { p with nt := Memory.write p.nt (ntIndex s.cart.mirroring a) b })
  else .ok () (s.mapPpu (Ppu.palWrite a b))

/-! ## The scroll registers and PPUDATA's address -/

/-- The 14-bit PPUDATA address `ppu.v & 0x3FFF` (R430). -/
def Ppu.dataAddr (p : Ppu) : Nat := p.v.toNat % 0x4000

/-- The PPUDATA increment: v + 32 if ctrl[2] = 1, else v + 1, on 15 bits (R430). -/
def Ppu.incV (p : Ppu) : Ppu := { p with v := p.v + (if p.ctrl.getLsbD 2 then 32#15 else 1#15) }

/-- PPUCTRL write of d with d[5] = 0: ctrl <- d and t[11:10] <- d[1:0] (R421). -/
def Ppu.writeCtrl (d : Byte) (p : Ppu) : Ppu :=
  { p with ctrl := d, t := (p.t &&& ~~~0x0C00#15) ||| ((d.setWidth 15 &&& 0x03#15) <<< 10) }

/-- PPUSCROLL write (R431). -/
def Ppu.writeScroll (d : Byte) (p : Ppu) : Ppu :=
  if p.w then
    { p with
      t := (p.t &&& ~~~0x73E0#15) ||| ((d.setWidth 15 &&& 0x07#15) <<< 12) ||| ((d.setWidth 15 >>> 3) <<< 5)
      w := false }
  else
    { p with t := (p.t &&& ~~~0x001F#15) ||| (d.setWidth 15 >>> 3), x := d.setWidth 3, w := true }

/-- PPUADDR write (R432). -/
def Ppu.writeAddr (d : Byte) (p : Ppu) : Ppu :=
  if p.w then
    let t := (p.t &&& 0x7F00#15) ||| d.setWidth 15
    { p with t := t, v := t, w := false }
  else
    { p with t := (p.t &&& 0x00FF#15) ||| ((d.setWidth 15 &&& 0x3F#15) <<< 8), w := true }

/-- OAMDATA write: store at OAMADDR and increment it modulo 256 (R428). -/
def Ppu.writeOamData (d : Byte) (p : Ppu) : Ppu :=
  { p with oam := Memory.write p.oam p.oamaddr.toNat d, oamaddr := p.oamaddr + 1 }

/-! ## The ports -/

/-- The PPUSTATUS byte: VBlank, sprite-0 hit, 0, and the low five bits of the oracle's byte (R47, R425). -/
def Ppu.statusByte (p : Ppu) (r : Byte) : Byte :=
  BitVec.ofBool p.vblank ++ BitVec.ofBool p.s0hit ++ BitVec.ofBool false ++ r.extractLsb' 0 5

/-- PPUSTATUS read: the status, then VBlank and w are cleared (R425). -/
def readStatus (s : State) : Res Byte :=
  .ok (s.ppu.statusByte (drawn s)) (s.afterDraw.mapPpu fun p => { p with vblank := false, w := false })

/-- PPUDATA read (R434): below 0x3F00 the buffer is returned and refilled from the address; in the palette region the
entry is returned with two oracle bits above it, and the buffer takes the nametable byte 0x1000 below. -/
def readData (s : State) : Res Byte :=
  let a := s.ppu.dataAddr
  if a < 0x3F00 then
    (ppuRead a s).bind fun b s1 =>
      .ok s.ppu.rdbuf (s1.mapPpu fun p => Ppu.incV { p with rdbuf := b })
  else
    (ppuRead (a - 0x1000) s).bind fun b s1 =>
      .ok ((drawn s).extractLsb' 6 2 ++ s.ppu.palRead a)
        (s1.afterDraw.mapPpu fun p => Ppu.incV { p with rdbuf := b })

/-- PPUDATA write: store at the address, then increment v (R433). -/
def writeData (d : Byte) (s : State) : Res Unit :=
  (ppuWrite s.ppu.dataAddr d s).bind fun _ s1 => .ok () (s1.mapPpu Ppu.incV)

/-- A read of the PPU port that a CPU address in 0x2000–0x3FFF names, `addr & 7`; ports 0, 1, 3, 5 and 6 raise
Fault(F2) (R420, R436). -/
def portRead (addr : Word) (s : State) : Res Byte :=
  match addr.toNat % 8 with
  | 2 => readStatus s
  | 4 => .ok (Memory.read s.ppu.oam s.ppu.oamaddr.toNat) s
  | 7 => readData s
  | _ => .fault (.f2PpuPortRead s.cpu.pc addr s)

/-- A write of the PPU port that a CPU address in 0x2000–0x3FFF names; a PPUCTRL write with bit 5 set raises Fault(F4)
and a write of port 2 is ignored (R420 to R433). -/
def portWrite (addr : Word) (d : Byte) (s : State) : Res Unit :=
  match addr.toNat % 8 with
  | 0 => if d.getLsbD 5 then .fault (.f4Sprite8x16 s.cpu.pc addr s) else .ok () (s.mapPpu (Ppu.writeCtrl d))
  | 1 => .ok () (s.mapPpu fun p => { p with mask := d })
  | 2 => .ok () s
  | 3 => .ok () (s.mapPpu fun p => { p with oamaddr := d })
  | 4 => .ok () (s.mapPpu (Ppu.writeOamData d))
  | 5 => .ok () (s.mapPpu (Ppu.writeScroll d))
  | 6 => .ok () (s.mapPpu (Ppu.writeAddr d))
  | _ => writeData d s

end Sys2Proof.Machine
end

