-- ==== Sys2Proof/Machine/Bus.lean ====
section
/-! DEFINITION. The CpuBus: the CPU address map (20_memory.md R104 to R110) with the controllers
(48_controllers_cassette.md R632, R633), the PRG write path (R642), and the OAM-DMA kick (R120). -/

namespace Sys2Proof.Machine

/-! ## Controllers -/

/-- Latch the buttons of one controller (R632). -/
def Pad.latch (p : Pad) : Pad := { p with shift := p.buttons, index := 0 }

/-- A write of 0x4016: while the old or the new strobe is 1 both controllers latch (R632). -/
def Ctl.writeStrobe (d : Byte) (c : Ctl) : Ctl :=
  if d.getLsbD 0 || c.strobe then
    { pad0 := c.pad0.latch, pad1 := c.pad1.latch, strobe := d.getLsbD 0 }
  else { c with strobe := d.getLsbD 0 }

/-- Bit 0 of a controller read: button A while the strobe is 1, else the next latched button, and after eight reads
the bit `r` that the oracle gave (R633). -/
def Pad.readBit (p : Pad) (strobe r : Bool) : Bool :=
  if strobe then p.buttons.getLsbD 0 else if p.index < 8 then p.shift.getLsbD p.index else r

/-- The controller after a read: the index moves on unless the strobe is 1 or eight reads are done (R633). -/
def Pad.afterRead (p : Pad) (strobe : Bool) : Pad :=
  if !strobe && decide (p.index < 8) then { p with index := p.index + 1 } else p

/-- The byte of a controller read: bits 7:1 from the oracle, bit 0 the controller's (R633). -/
def padByte (r : Byte) (b : Bool) : Byte := r.extractLsb' 1 7 ++ BitVec.ofBool b

/-- A read of 0x4016: controller 0. Two bytes of the oracle: bit 0 after the eighth read, and bits 7:1 (R633). -/
def readPad0 (s : State) : Res Byte :=
  .ok (padByte (drawn s.afterDraw) (s.ctl.pad0.readBit s.ctl.strobe ((drawn s).getLsbD 0)))
    (s.afterDraw.afterDraw.mapCtl fun c => { c with pad0 := c.pad0.afterRead c.strobe })

/-- A read of 0x4017: controller 1 (R633). -/
def readPad1 (s : State) : Res Byte :=
  .ok (padByte (drawn s.afterDraw) (s.ctl.pad1.readBit s.ctl.strobe ((drawn s).getLsbD 0)))
    (s.afterDraw.afterDraw.mapCtl fun c => { c with pad1 := c.pad1.afterRead c.strobe })

/-! ## 0x4000–0x401F -/

/-- A read of `0x4000 + r`, r < 0x20: the APU status, a controller, or a byte of the oracle (R109). -/
def ioRead (r : Nat) (s : State) : Res Byte :=
  match r with
  | 0x15 => .ok (s.apu.statusByte ((drawn s).getLsbD 0)) s.afterDraw
  | 0x16 => readPad0 s
  | 0x17 => readPad1 s
  | _ => .ok (drawn s) s.afterDraw

/-- A write of `0x4000 + r`, r < 0x20: the OAM-DMA kick (R120), the strobe (R632), an APU register, or nothing
(R108). -/
def ioWrite (r : Nat) (d : Byte) (s : State) : State :=
  match r with
  | 0x14 => s.mapBus fun b => { b with dmaPending := true, dmaPage := d }
  | 0x16 => s.mapCtl (Ctl.writeStrobe d)
  | _ => s.mapApu (Apu.write r d)

/-! ## PRG writes -/

/-- `writePrgRom(addr - 0x8000, d)`: Fault(F6) at or past the PRG size (R110, R642). -/
def prgWrite (addr : Word) (d : Byte) (s : State) : Res Unit :=
  let o := addr.toNat - 0x8000
  if o < s.cart.prgSize then .ok () (s.mapCart fun c => { c with prg := Memory.write c.prg o d })
  else .fault (.f6PrgBounds s.cpu.pc addr s)

/-! ## The map -/

/-- `MemRead(addr, 1)` (R104). -/
def busRead (addr : Word) (s : State) : Res Byte :=
  if addr.toNat < 0x2000 then .ok (wramRead s addr) s
  else if addr.toNat < 0x4000 then portRead addr s
  else if addr.toNat < 0x4020 then ioRead (addr.toNat - 0x4000) s
  else if addr.toNat < 0x6000 then .fault (.f5Unmapped s.cpu.pc addr s)
  else if addr.toNat < 0x8000 then
    if s.params.prgRamPresent then .ok (Memory.read s.prgRam (addr.toNat - 0x6000)) s
    else .fault (.f5Unmapped s.cpu.pc addr s)
  else .ok (prgRead s addr) s

/-- `MemWrite(addr, 1, d)` (R104). -/
def busWrite (addr : Word) (d : Byte) (s : State) : Res Unit :=
  if addr.toNat < 0x2000 then .ok () (wramWrite addr d s)
  else if addr.toNat < 0x4000 then portWrite addr d s
  else if addr.toNat < 0x4020 then .ok () (ioWrite (addr.toNat - 0x4000) d s)
  else if addr.toNat < 0x6000 then .fault (.f5Unmapped s.cpu.pc addr s)
  else if addr.toNat < 0x8000 then
    if s.params.prgRamPresent then .ok () (s.mapPrgRam fun m => Memory.write m (addr.toNat - 0x6000) d)
    else .fault (.f5Unmapped s.cpu.pc addr s)
  else prgWrite addr d s

end Sys2Proof.Machine
end

