-- ==== Sys2Proof/Machine/Operands.lean ====
section
/-! DEFINITION. Operand forms: `FetchAddress`, `FetchValue`, `WriteBack` (40_addressing_modes.md R200 to R217), the
branch target (R211) and the jump pointer (R212). -/

namespace Sys2Proof.Machine

/-- A zero-page address (R163). -/
def zeroPage (z : Byte) : Word := z.setWidth 16

/-- The two addresses lie in different pages (R208). -/
def pageCross (a b : Word) : Bool := hiByte a != hiByte b

/-- A 16-bit pointer in page 0: the low byte at z, the high byte at z + 1 modulo 256 (R209, R210). -/
def readPointer (z : Byte) (s : State) : Res Word :=
  (busRead (zeroPage z) s).bind fun lo s1 =>
    (busRead (zeroPage (z + 1)) s1).bind fun hi s2 => .ok (wordOf lo hi) s2

/-- `FetchAddress(mode)`: the effective address and whether indexing crossed a page (R200, R204 to R210). -/
def fetchAddress (m : MemOperand) (s : State) : Res (Word × Bool) :=
  match m with
  | .zp z => .ok (zeroPage z, false) s
  | .zpx z => .ok (zeroPage (z + s.cpu.x), false) s
  | .zpy z => .ok (zeroPage (z + s.cpu.y), false) s
  | .abs a => .ok (a, false) s
  | .abx a => .ok (a + s.cpu.x.setWidth 16, pageCross a (a + s.cpu.x.setWidth 16)) s
  | .aby a => .ok (a + s.cpu.y.setWidth 16, pageCross a (a + s.cpu.y.setWidth 16)) s
  | .izx z => (readPointer (z + s.cpu.x) s).bind fun p s1 => .ok (p, false) s1
  | .izy z =>
    (readPointer z s).bind fun p s1 =>
      .ok (p + s1.cpu.y.setWidth 16, pageCross p (p + s1.cpu.y.setWidth 16)) s1

/-- Where `WriteBack` stores: the accumulator, nowhere (an immediate), or the effective address (R216). -/
inductive Place
  | acc
  | none
  | mem (ea : Word)
  deriving DecidableEq, Repr

/-- What `FetchValue` returns, with the place the value was read from (R214, R216). -/
structure Fetched where
  value : Byte
  cross : Bool
  place : Place
  deriving DecidableEq, Repr

/-- `FetchValue(mode)` (R202, R203, R214): one data read for a memory mode. -/
def fetchValue (o : ValueOperand) (s : State) : Res Fetched :=
  match o with
  | .acc => .ok ⟨s.cpu.a, false, .acc⟩ s
  | .imm v => .ok ⟨v, false, .none⟩ s
  | .mem m =>
    (fetchAddress m s).bind fun e s1 =>
      (busRead e.1 s1).bind fun v s2 => .ok ⟨v, e.2, .mem e.1⟩ s2

/-- `WriteBack(mode, v)` (R216). -/
def writeBack (p : Place) (v : Byte) (s : State) : Res Unit :=
  match p with
  | .acc => .ok () (s.mapCpu fun c => { c with a := v })
  | .none => .ok () s
  | .mem ea => busWrite ea v s

/-- The address after a branch that is not taken: `(PC + 2) mod 2^16` (R330). -/
def branchNext (s : State) : Word := s.cpu.pc + 2

/-- The target of a branch (R211, R330). -/
def branchTarget (d : Int) (s : State) : Word := branchNext s + BitVec.ofInt 16 d

/-- The address of the high byte of a jump pointer: in the same page as the low byte (R212, R342). -/
def pointerHighAddr (p : Word) : Word := wordOf (loByte p + 1) (hiByte p)

/-- The target of JMP indirect: two one-byte reads (R212). DEDUCED (log entry 9): the low byte is read first, as for
every 16-bit quantity (20_memory.md R101); R212 gives the two addresses and no order. -/
def readJumpPointer (p : Word) (s : State) : Res Word :=
  (busRead p s).bind fun lo s1 =>
    (busRead (pointerHighAddr p) s1).bind fun hi s2 => .ok (wordOf lo hi) s2

end Sys2Proof.Machine
end

