-- ==== Sys2Proof/Machine/Flags.lean ====
section
/-! DEFINITION. The flag computations and the arithmetic that sets flags, on the CPU registers alone: `SetNZ`
(41_load_store_transfer.md R252), `AddCore` and `Compare` (42_arithmetic_logic.md R270, R280), shifts and rotates
(R287 to R290). -/

namespace Sys2Proof.Machine

/-- `SetNZ(v)` (R252). -/
def Cpu.setNZ (v : Byte) (c : Cpu) : Cpu := { c with n := v.getLsbD 7, z := v == 0 }

/-- A, with N and Z set from it. -/
def Cpu.loadA (v : Byte) (c : Cpu) : Cpu := Cpu.setNZ v { c with a := v }

/-- X, with N and Z set from it. -/
def Cpu.loadX (v : Byte) (c : Cpu) : Cpu := Cpu.setNZ v { c with x := v }

/-- Y, with N and Z set from it. -/
def Cpu.loadY (v : Byte) (c : Cpu) : Cpu := Cpu.setNZ v { c with y := v }

/-- C. -/
def Cpu.setC (b : Bool) (c : Cpu) : Cpu := { c with c := b }

/-- The sum of `AddCore`, a natural number 0 to 511 (R270). -/
def addSum (a m : Byte) (carry : Bool) : Nat := a.toNat + m.toNat + carry.toNat

/-- The V of `AddCore`: the operands have one sign and the result the other (R270). -/
def addOverflow (a m r : Byte) : Bool := (~~~(a ^^^ m) &&& (a ^^^ r)).getLsbD 7

/-- `AddCore(m)`: A plus m plus C, with N, V, Z and C; D is not read (R270). -/
def Cpu.addCore (m : Byte) (c : Cpu) : Cpu :=
  let r := BitVec.ofNat 8 (addSum c.a m c.c)
  Cpu.loadA r { c with c := decide (addSum c.a m c.c > 0xFF), v := addOverflow c.a m r }

/-- `Compare(r, v)`: C is r ≥ v unsigned, N and Z are of r − v; V is not written (R280). -/
def Cpu.compare (r v : Byte) (c : Cpu) : Cpu := Cpu.setNZ (r - v) (c.setC (decide (v.toNat ≤ r.toNat)))

/-- `(v << 1) & 0xFF` with the bit shifted in (R287, R289). -/
def shiftLeft (v : Byte) (b : Bool) : Byte := v.extractLsb' 0 7 ++ BitVec.ofBool b

/-- `v >> 1` with the bit shifted in (R288, R290). -/
def shiftRight (v : Byte) (b : Bool) : Byte := BitVec.ofBool b ++ v.extractLsb' 1 7

end Sys2Proof.Machine
end

