-- ==== Sys2Proof/Machine/Exec.lean ====
section
/-! DEFINITION. The shapes of an instruction's meaning (`cpu.run` after the fetch, 49_system_step.md R677): how an
implied, a reading, a storing, a read-modify-write instruction and a branch run, advance PC (30_encoding.md R165) and
return their cycles (R169, 40_addressing_modes.md R213). -/

namespace Sys2Proof.Machine

/-- The page-cross cycle of R213: one where the row has it and the access crossed a page. -/
def crossCycle (i : Instr) (cross : Bool) : Nat := if i.row.pageCross && cross then 1 else 0

/-- The end of an instruction whose rule does not write PC: PC advances by the row's length (R165) and the cycles are
the base cycles and the page-cross cycle (R169). -/
def finish (i : Instr) (cross : Bool) (s : State) : State :=
  (s.mapCpu fun c => { c with pc := c.pc + BitVec.ofNat 16 i.length }).setInsCycles
    (i.row.baseCycles + crossCycle i cross)

/-- The end of an instruction whose rule wrote PC: the cycles are the base cycles. -/
def finishJump (i : Instr) (s : State) : State := s.setInsCycles i.row.baseCycles

/-- An instruction with no operand that works on the registers alone. -/
def runImplied (i : Instr) (f : Cpu → Cpu) (s : State) : Host.Outcome State Fault Refusal :=
  .next (finish i false (s.mapCpu f))

/-- An instruction that reads a value and works on the registers: `(v, cross) <- FetchValue(mode)`, then f. -/
def runRead (i : Instr) (o : ValueOperand) (f : Byte → Cpu → Cpu) (s : State) : Host.Outcome State Fault Refusal :=
  ((fetchValue o s).bind fun r s1 => .ok () (finish i r.cross (s1.mapCpu (f r.value)))).outcome

/-- An instruction that stores a value of the registers: `(ea, cross) <- FetchAddress(mode); MemWrite(ea, 1, f)`. -/
def runStore (i : Instr) (m : MemOperand) (f : Cpu → Byte) (s : State) : Host.Outcome State Fault Refusal :=
  ((fetchAddress m s).bind fun e s1 =>
    (busWrite e.1 (f s1.cpu) s1).bind fun _ s2 => .ok () (finish i e.2 s2)).outcome

/-- A read-modify-write instruction: `(v, cross) <- FetchValue(mode)`, the registers changed by `before`, the result
`r` of v and the registers written back to where v came from (R215), the registers then changed by `after r`. -/
def runModify (i : Instr) (o : ValueOperand) (result : Byte → Cpu → Byte) (before : Byte → Cpu → Cpu)
    (after : Byte → Cpu → Cpu) (s : State) : Host.Outcome State Fault Refusal :=
  ((fetchValue o s).bind fun v s1 =>
    (writeBack v.place (result v.value s1.cpu) (s1.mapCpu (before v.value))).bind fun _ s2 =>
      .ok () (finish i v.cross (s2.mapCpu (after (result v.value s1.cpu))))).outcome

/-- `Branch(cond)`: taken, PC becomes the target at one more cycle, two more when the target is in another page than
the next instruction (43_control_flow.md R330). -/
def runBranch (i : Instr) (d : Int) (cond : Bool) (s : State) : Host.Outcome State Fault Refusal :=
  if cond then
    .next ((s.mapCpu fun c => { c with pc := branchTarget d s }).setInsCycles
      (i.row.baseCycles + 1 + (if pageCross (branchNext s) (branchTarget d s) then 1 else 0)))
  else .next (finish i false s)

/-- A faulting row: Fault(F1), no state change, PC not advanced (44_unofficial.md R397 to R404). -/
def runFault (s : State) : Host.Outcome State Fault Refusal := .fault (.f1UnimplementedOpcode s.cpu.pc s)

end Sys2Proof.Machine
end

