-- ==== Sys2Proof/Machine/Arith.lean ====
section
/-! DEFINITION. Arithmetic, logic, compares, increments and shifts (42_arithmetic_logic.md): one shared definition for each mnemonic, and the
meaning of each row of the opcode table over it. -/

namespace Sys2Proof.Machine

/-- ADC: A plus the value plus C, with N, V, Z and C (R271). -/
def adcForm (i : Instr) (o : ValueOperand) (s : State) : Host.Outcome State Fault Refusal :=
  runRead i o (fun v => Cpu.addCore v) s

/-- 0x61 `ADC ($nn,X)` (R271). -/
def execAdcIzx (z : Byte) (s : State) : Host.Outcome State Fault Refusal := adcForm (.adcIzx z) (.mem (.izx z)) s
/-- 0x65 `ADC $nn` (R271). -/
def execAdcZp (z : Byte) (s : State) : Host.Outcome State Fault Refusal := adcForm (.adcZp z) (.mem (.zp z)) s
/-- 0x69 `ADC #$nn` (R271). -/
def execAdcImm (v : Byte) (s : State) : Host.Outcome State Fault Refusal := adcForm (.adcImm v) (.imm v) s
/-- 0x6D `ADC $nnnn` (R271). -/
def execAdcAbs (a : Word) (s : State) : Host.Outcome State Fault Refusal := adcForm (.adcAbs a) (.mem (.abs a)) s
/-- 0x71 `ADC ($nn),Y` (R271). -/
def execAdcIzy (z : Byte) (s : State) : Host.Outcome State Fault Refusal := adcForm (.adcIzy z) (.mem (.izy z)) s
/-- 0x75 `ADC $nn,X` (R271). -/
def execAdcZpx (z : Byte) (s : State) : Host.Outcome State Fault Refusal := adcForm (.adcZpx z) (.mem (.zpx z)) s
/-- 0x79 `ADC $nnnn,Y` (R271). -/
def execAdcAby (a : Word) (s : State) : Host.Outcome State Fault Refusal := adcForm (.adcAby a) (.mem (.aby a)) s
/-- 0x7D `ADC $nnnn,X` (R271). -/
def execAdcAbx (a : Word) (s : State) : Host.Outcome State Fault Refusal := adcForm (.adcAbx a) (.mem (.abx a)) s

/-- SBC: A minus the value minus the borrow, as `AddCore` of its complement (R272). -/
def sbcForm (i : Instr) (o : ValueOperand) (s : State) : Host.Outcome State Fault Refusal :=
  runRead i o (fun v => Cpu.addCore (v ^^^ 0xFF)) s

/-- 0xE1 `SBC ($nn,X)` (R272). -/
def execSbcIzx (z : Byte) (s : State) : Host.Outcome State Fault Refusal := sbcForm (.sbcIzx z) (.mem (.izx z)) s
/-- 0xE5 `SBC $nn` (R272). -/
def execSbcZp (z : Byte) (s : State) : Host.Outcome State Fault Refusal := sbcForm (.sbcZp z) (.mem (.zp z)) s
/-- 0xE9 `SBC #$nn` (R272). -/
def execSbcImm (v : Byte) (s : State) : Host.Outcome State Fault Refusal := sbcForm (.sbcImm v) (.imm v) s
/-- 0xEB `SBC #$nn` (R393). -/
def execSbcEB (v : Byte) (s : State) : Host.Outcome State Fault Refusal := sbcForm (.sbcEB v) (.imm v) s
/-- 0xED `SBC $nnnn` (R272). -/
def execSbcAbs (a : Word) (s : State) : Host.Outcome State Fault Refusal := sbcForm (.sbcAbs a) (.mem (.abs a)) s
/-- 0xF1 `SBC ($nn),Y` (R272). -/
def execSbcIzy (z : Byte) (s : State) : Host.Outcome State Fault Refusal := sbcForm (.sbcIzy z) (.mem (.izy z)) s
/-- 0xF5 `SBC $nn,X` (R272). -/
def execSbcZpx (z : Byte) (s : State) : Host.Outcome State Fault Refusal := sbcForm (.sbcZpx z) (.mem (.zpx z)) s
/-- 0xF9 `SBC $nnnn,Y` (R272). -/
def execSbcAby (a : Word) (s : State) : Host.Outcome State Fault Refusal := sbcForm (.sbcAby a) (.mem (.aby a)) s
/-- 0xFD `SBC $nnnn,X` (R272). -/
def execSbcAbx (a : Word) (s : State) : Host.Outcome State Fault Refusal := sbcForm (.sbcAbx a) (.mem (.abx a)) s

/-- AND: A and the value, with N and Z (R273). -/
def andForm (i : Instr) (o : ValueOperand) (s : State) : Host.Outcome State Fault Refusal :=
  runRead i o (fun v c => Cpu.loadA (c.a &&& v) c) s

/-- 0x21 `AND ($nn,X)` (R273). -/
def execAndIzx (z : Byte) (s : State) : Host.Outcome State Fault Refusal := andForm (.andIzx z) (.mem (.izx z)) s
/-- 0x25 `AND $nn` (R273). -/
def execAndZp (z : Byte) (s : State) : Host.Outcome State Fault Refusal := andForm (.andZp z) (.mem (.zp z)) s
/-- 0x29 `AND #$nn` (R273). -/
def execAndImm (v : Byte) (s : State) : Host.Outcome State Fault Refusal := andForm (.andImm v) (.imm v) s
/-- 0x2D `AND $nnnn` (R273). -/
def execAndAbs (a : Word) (s : State) : Host.Outcome State Fault Refusal := andForm (.andAbs a) (.mem (.abs a)) s
/-- 0x31 `AND ($nn),Y` (R273). -/
def execAndIzy (z : Byte) (s : State) : Host.Outcome State Fault Refusal := andForm (.andIzy z) (.mem (.izy z)) s
/-- 0x35 `AND $nn,X` (R273). -/
def execAndZpx (z : Byte) (s : State) : Host.Outcome State Fault Refusal := andForm (.andZpx z) (.mem (.zpx z)) s
/-- 0x39 `AND $nnnn,Y` (R273). -/
def execAndAby (a : Word) (s : State) : Host.Outcome State Fault Refusal := andForm (.andAby a) (.mem (.aby a)) s
/-- 0x3D `AND $nnnn,X` (R273). -/
def execAndAbx (a : Word) (s : State) : Host.Outcome State Fault Refusal := andForm (.andAbx a) (.mem (.abx a)) s

/-- ORA: A or the value, with N and Z (R274). -/
def oraForm (i : Instr) (o : ValueOperand) (s : State) : Host.Outcome State Fault Refusal :=
  runRead i o (fun v c => Cpu.loadA (c.a ||| v) c) s

/-- 0x01 `ORA ($nn,X)` (R274). -/
def execOraIzx (z : Byte) (s : State) : Host.Outcome State Fault Refusal := oraForm (.oraIzx z) (.mem (.izx z)) s
/-- 0x05 `ORA $nn` (R274). -/
def execOraZp (z : Byte) (s : State) : Host.Outcome State Fault Refusal := oraForm (.oraZp z) (.mem (.zp z)) s
/-- 0x09 `ORA #$nn` (R274). -/
def execOraImm (v : Byte) (s : State) : Host.Outcome State Fault Refusal := oraForm (.oraImm v) (.imm v) s
/-- 0x0D `ORA $nnnn` (R274). -/
def execOraAbs (a : Word) (s : State) : Host.Outcome State Fault Refusal := oraForm (.oraAbs a) (.mem (.abs a)) s
/-- 0x11 `ORA ($nn),Y` (R274). -/
def execOraIzy (z : Byte) (s : State) : Host.Outcome State Fault Refusal := oraForm (.oraIzy z) (.mem (.izy z)) s
/-- 0x15 `ORA $nn,X` (R274). -/
def execOraZpx (z : Byte) (s : State) : Host.Outcome State Fault Refusal := oraForm (.oraZpx z) (.mem (.zpx z)) s
/-- 0x19 `ORA $nnnn,Y` (R274). -/
def execOraAby (a : Word) (s : State) : Host.Outcome State Fault Refusal := oraForm (.oraAby a) (.mem (.aby a)) s
/-- 0x1D `ORA $nnnn,X` (R274). -/
def execOraAbx (a : Word) (s : State) : Host.Outcome State Fault Refusal := oraForm (.oraAbx a) (.mem (.abx a)) s

/-- EOR: A exclusive or the value, with N and Z (R275). -/
def eorForm (i : Instr) (o : ValueOperand) (s : State) : Host.Outcome State Fault Refusal :=
  runRead i o (fun v c => Cpu.loadA (c.a ^^^ v) c) s

/-- 0x41 `EOR ($nn,X)` (R275). -/
def execEorIzx (z : Byte) (s : State) : Host.Outcome State Fault Refusal := eorForm (.eorIzx z) (.mem (.izx z)) s
/-- 0x45 `EOR $nn` (R275). -/
def execEorZp (z : Byte) (s : State) : Host.Outcome State Fault Refusal := eorForm (.eorZp z) (.mem (.zp z)) s
/-- 0x49 `EOR #$nn` (R275). -/
def execEorImm (v : Byte) (s : State) : Host.Outcome State Fault Refusal := eorForm (.eorImm v) (.imm v) s
/-- 0x4D `EOR $nnnn` (R275). -/
def execEorAbs (a : Word) (s : State) : Host.Outcome State Fault Refusal := eorForm (.eorAbs a) (.mem (.abs a)) s
/-- 0x51 `EOR ($nn),Y` (R275). -/
def execEorIzy (z : Byte) (s : State) : Host.Outcome State Fault Refusal := eorForm (.eorIzy z) (.mem (.izy z)) s
/-- 0x55 `EOR $nn,X` (R275). -/
def execEorZpx (z : Byte) (s : State) : Host.Outcome State Fault Refusal := eorForm (.eorZpx z) (.mem (.zpx z)) s
/-- 0x59 `EOR $nnnn,Y` (R275). -/
def execEorAby (a : Word) (s : State) : Host.Outcome State Fault Refusal := eorForm (.eorAby a) (.mem (.aby a)) s
/-- 0x5D `EOR $nnnn,X` (R275). -/
def execEorAbx (a : Word) (s : State) : Host.Outcome State Fault Refusal := eorForm (.eorAbx a) (.mem (.abx a)) s

/-- BIT: Z of A and the value, N and V its bits 7 and 6; A unchanged (R276). -/
def bitForm (i : Instr) (o : ValueOperand) (s : State) : Host.Outcome State Fault Refusal :=
  runRead i o (fun v c => { c with z := (c.a &&& v) == 0, n := v.getLsbD 7, v := v.getLsbD 6 }) s

/-- 0x24 `BIT $nn` (R276). -/
def execBitZp (z : Byte) (s : State) : Host.Outcome State Fault Refusal := bitForm (.bitZp z) (.mem (.zp z)) s
/-- 0x2C `BIT $nnnn` (R276). -/
def execBitAbs (a : Word) (s : State) : Host.Outcome State Fault Refusal := bitForm (.bitAbs a) (.mem (.abs a)) s

/-- CMP: compare A with the value (R277). -/
def cmpForm (i : Instr) (o : ValueOperand) (s : State) : Host.Outcome State Fault Refusal :=
  runRead i o (fun v c => Cpu.compare c.a v c) s

/-- 0xC1 `CMP ($nn,X)` (R277). -/
def execCmpIzx (z : Byte) (s : State) : Host.Outcome State Fault Refusal := cmpForm (.cmpIzx z) (.mem (.izx z)) s
/-- 0xC5 `CMP $nn` (R277). -/
def execCmpZp (z : Byte) (s : State) : Host.Outcome State Fault Refusal := cmpForm (.cmpZp z) (.mem (.zp z)) s
/-- 0xC9 `CMP #$nn` (R277). -/
def execCmpImm (v : Byte) (s : State) : Host.Outcome State Fault Refusal := cmpForm (.cmpImm v) (.imm v) s
/-- 0xCD `CMP $nnnn` (R277). -/
def execCmpAbs (a : Word) (s : State) : Host.Outcome State Fault Refusal := cmpForm (.cmpAbs a) (.mem (.abs a)) s
/-- 0xD1 `CMP ($nn),Y` (R277). -/
def execCmpIzy (z : Byte) (s : State) : Host.Outcome State Fault Refusal := cmpForm (.cmpIzy z) (.mem (.izy z)) s
/-- 0xD5 `CMP $nn,X` (R277). -/
def execCmpZpx (z : Byte) (s : State) : Host.Outcome State Fault Refusal := cmpForm (.cmpZpx z) (.mem (.zpx z)) s
/-- 0xD9 `CMP $nnnn,Y` (R277). -/
def execCmpAby (a : Word) (s : State) : Host.Outcome State Fault Refusal := cmpForm (.cmpAby a) (.mem (.aby a)) s
/-- 0xDD `CMP $nnnn,X` (R277). -/
def execCmpAbx (a : Word) (s : State) : Host.Outcome State Fault Refusal := cmpForm (.cmpAbx a) (.mem (.abx a)) s

/-- CPX: compare X with the value (R278). -/
def cpxForm (i : Instr) (o : ValueOperand) (s : State) : Host.Outcome State Fault Refusal :=
  runRead i o (fun v c => Cpu.compare c.x v c) s

/-- 0xE0 `CPX #$nn` (R278). -/
def execCpxImm (v : Byte) (s : State) : Host.Outcome State Fault Refusal := cpxForm (.cpxImm v) (.imm v) s
/-- 0xE4 `CPX $nn` (R278). -/
def execCpxZp (z : Byte) (s : State) : Host.Outcome State Fault Refusal := cpxForm (.cpxZp z) (.mem (.zp z)) s
/-- 0xEC `CPX $nnnn` (R278). -/
def execCpxAbs (a : Word) (s : State) : Host.Outcome State Fault Refusal := cpxForm (.cpxAbs a) (.mem (.abs a)) s

/-- CPY: compare Y with the value (R279). -/
def cpyForm (i : Instr) (o : ValueOperand) (s : State) : Host.Outcome State Fault Refusal :=
  runRead i o (fun v c => Cpu.compare c.y v c) s

/-- 0xC0 `CPY #$nn` (R279). -/
def execCpyImm (v : Byte) (s : State) : Host.Outcome State Fault Refusal := cpyForm (.cpyImm v) (.imm v) s
/-- 0xC4 `CPY $nn` (R279). -/
def execCpyZp (z : Byte) (s : State) : Host.Outcome State Fault Refusal := cpyForm (.cpyZp z) (.mem (.zp z)) s
/-- 0xCC `CPY $nnnn` (R279). -/
def execCpyAbs (a : Word) (s : State) : Host.Outcome State Fault Refusal := cpyForm (.cpyAbs a) (.mem (.abs a)) s

/-- INC: memory plus 1, with N and Z (R281). -/
def incForm (i : Instr) (o : ValueOperand) (s : State) : Host.Outcome State Fault Refusal :=
  runModify i o (fun v _ => v + 1)
    (fun _ c => c)
    (fun r => Cpu.setNZ r) s

/-- 0xE6 `INC $nn` (R281). -/
def execIncZp (z : Byte) (s : State) : Host.Outcome State Fault Refusal := incForm (.incZp z) (.mem (.zp z)) s
/-- 0xEE `INC $nnnn` (R281). -/
def execIncAbs (a : Word) (s : State) : Host.Outcome State Fault Refusal := incForm (.incAbs a) (.mem (.abs a)) s
/-- 0xF6 `INC $nn,X` (R281). -/
def execIncZpx (z : Byte) (s : State) : Host.Outcome State Fault Refusal := incForm (.incZpx z) (.mem (.zpx z)) s
/-- 0xFE `INC $nnnn,X` (R281). -/
def execIncAbx (a : Word) (s : State) : Host.Outcome State Fault Refusal := incForm (.incAbx a) (.mem (.abx a)) s

/-- DEC: memory minus 1, with N and Z (R282). -/
def decForm (i : Instr) (o : ValueOperand) (s : State) : Host.Outcome State Fault Refusal :=
  runModify i o (fun v _ => v - 1)
    (fun _ c => c)
    (fun r => Cpu.setNZ r) s

/-- 0xC6 `DEC $nn` (R282). -/
def execDecZp (z : Byte) (s : State) : Host.Outcome State Fault Refusal := decForm (.decZp z) (.mem (.zp z)) s
/-- 0xCE `DEC $nnnn` (R282). -/
def execDecAbs (a : Word) (s : State) : Host.Outcome State Fault Refusal := decForm (.decAbs a) (.mem (.abs a)) s
/-- 0xD6 `DEC $nn,X` (R282). -/
def execDecZpx (z : Byte) (s : State) : Host.Outcome State Fault Refusal := decForm (.decZpx z) (.mem (.zpx z)) s
/-- 0xDE `DEC $nnnn,X` (R282). -/
def execDecAbx (a : Word) (s : State) : Host.Outcome State Fault Refusal := decForm (.decAbx a) (.mem (.abx a)) s

/-- INX: X plus 1, with N and Z (R283). -/
def inxForm (i : Instr) (s : State) : Host.Outcome State Fault Refusal :=
  runImplied i (fun c => Cpu.loadX (c.x + 1) c) s

/-- 0xE8 `INX` (R283). -/
def execInx (s : State) : Host.Outcome State Fault Refusal := inxForm .inx s

/-- INY: Y plus 1, with N and Z (R284). -/
def inyForm (i : Instr) (s : State) : Host.Outcome State Fault Refusal :=
  runImplied i (fun c => Cpu.loadY (c.y + 1) c) s

/-- 0xC8 `INY` (R284). -/
def execIny (s : State) : Host.Outcome State Fault Refusal := inyForm .iny s

/-- DEX: X minus 1, with N and Z (R285). -/
def dexForm (i : Instr) (s : State) : Host.Outcome State Fault Refusal :=
  runImplied i (fun c => Cpu.loadX (c.x - 1) c) s

/-- 0xCA `DEX` (R285). -/
def execDex (s : State) : Host.Outcome State Fault Refusal := dexForm .dex s

/-- DEY: Y minus 1, with N and Z (R286). -/
def deyForm (i : Instr) (s : State) : Host.Outcome State Fault Refusal :=
  runImplied i (fun c => Cpu.loadY (c.y - 1) c) s

/-- 0x88 `DEY` (R286). -/
def execDey (s : State) : Host.Outcome State Fault Refusal := deyForm .dey s

/-- ASL: shift left; C takes bit 7 (R287). -/
def aslForm (i : Instr) (o : ValueOperand) (s : State) : Host.Outcome State Fault Refusal :=
  runModify i o (fun v _ => shiftLeft v false)
    (fun v => Cpu.setC (v.getLsbD 7))
    (fun r => Cpu.setNZ r) s

/-- 0x06 `ASL $nn` (R287). -/
def execAslZp (z : Byte) (s : State) : Host.Outcome State Fault Refusal := aslForm (.aslZp z) (.mem (.zp z)) s
/-- 0x0A `ASL A` (R287). -/
def execAslAcc (s : State) : Host.Outcome State Fault Refusal := aslForm .aslAcc .acc s
/-- 0x0E `ASL $nnnn` (R287). -/
def execAslAbs (a : Word) (s : State) : Host.Outcome State Fault Refusal := aslForm (.aslAbs a) (.mem (.abs a)) s
/-- 0x16 `ASL $nn,X` (R287). -/
def execAslZpx (z : Byte) (s : State) : Host.Outcome State Fault Refusal := aslForm (.aslZpx z) (.mem (.zpx z)) s
/-- 0x1E `ASL $nnnn,X` (R287). -/
def execAslAbx (a : Word) (s : State) : Host.Outcome State Fault Refusal := aslForm (.aslAbx a) (.mem (.abx a)) s

/-- LSR: shift right; C takes bit 0 (R288). -/
def lsrForm (i : Instr) (o : ValueOperand) (s : State) : Host.Outcome State Fault Refusal :=
  runModify i o (fun v _ => shiftRight v false)
    (fun v => Cpu.setC (v.getLsbD 0))
    (fun r => Cpu.setNZ r) s

/-- 0x46 `LSR $nn` (R288). -/
def execLsrZp (z : Byte) (s : State) : Host.Outcome State Fault Refusal := lsrForm (.lsrZp z) (.mem (.zp z)) s
/-- 0x4A `LSR A` (R288). -/
def execLsrAcc (s : State) : Host.Outcome State Fault Refusal := lsrForm .lsrAcc .acc s
/-- 0x4E `LSR $nnnn` (R288). -/
def execLsrAbs (a : Word) (s : State) : Host.Outcome State Fault Refusal := lsrForm (.lsrAbs a) (.mem (.abs a)) s
/-- 0x56 `LSR $nn,X` (R288). -/
def execLsrZpx (z : Byte) (s : State) : Host.Outcome State Fault Refusal := lsrForm (.lsrZpx z) (.mem (.zpx z)) s
/-- 0x5E `LSR $nnnn,X` (R288). -/
def execLsrAbx (a : Word) (s : State) : Host.Outcome State Fault Refusal := lsrForm (.lsrAbx a) (.mem (.abx a)) s

/-- ROL: rotate left through C (R289). -/
def rolForm (i : Instr) (o : ValueOperand) (s : State) : Host.Outcome State Fault Refusal :=
  runModify i o (fun v c => shiftLeft v c.c)
    (fun v => Cpu.setC (v.getLsbD 7))
    (fun r => Cpu.setNZ r) s

/-- 0x26 `ROL $nn` (R289). -/
def execRolZp (z : Byte) (s : State) : Host.Outcome State Fault Refusal := rolForm (.rolZp z) (.mem (.zp z)) s
/-- 0x2A `ROL A` (R289). -/
def execRolAcc (s : State) : Host.Outcome State Fault Refusal := rolForm .rolAcc .acc s
/-- 0x2E `ROL $nnnn` (R289). -/
def execRolAbs (a : Word) (s : State) : Host.Outcome State Fault Refusal := rolForm (.rolAbs a) (.mem (.abs a)) s
/-- 0x36 `ROL $nn,X` (R289). -/
def execRolZpx (z : Byte) (s : State) : Host.Outcome State Fault Refusal := rolForm (.rolZpx z) (.mem (.zpx z)) s
/-- 0x3E `ROL $nnnn,X` (R289). -/
def execRolAbx (a : Word) (s : State) : Host.Outcome State Fault Refusal := rolForm (.rolAbx a) (.mem (.abx a)) s

/-- ROR: rotate right through C (R290). -/
def rorForm (i : Instr) (o : ValueOperand) (s : State) : Host.Outcome State Fault Refusal :=
  runModify i o (fun v c => shiftRight v c.c)
    (fun v => Cpu.setC (v.getLsbD 0))
    (fun r => Cpu.setNZ r) s

/-- 0x66 `ROR $nn` (R290). -/
def execRorZp (z : Byte) (s : State) : Host.Outcome State Fault Refusal := rorForm (.rorZp z) (.mem (.zp z)) s
/-- 0x6A `ROR A` (R290). -/
def execRorAcc (s : State) : Host.Outcome State Fault Refusal := rorForm .rorAcc .acc s
/-- 0x6E `ROR $nnnn` (R290). -/
def execRorAbs (a : Word) (s : State) : Host.Outcome State Fault Refusal := rorForm (.rorAbs a) (.mem (.abs a)) s
/-- 0x76 `ROR $nn,X` (R290). -/
def execRorZpx (z : Byte) (s : State) : Host.Outcome State Fault Refusal := rorForm (.rorZpx z) (.mem (.zpx z)) s
/-- 0x7E `ROR $nnnn,X` (R290). -/
def execRorAbx (a : Word) (s : State) : Host.Outcome State Fault Refusal := rorForm (.rorAbx a) (.mem (.abx a)) s

end Sys2Proof.Machine
end

