-- ==== Sys2Proof/Machine/Control.lean ====
section
/-! DEFINITION. Branches, jumps, subroutines, BRK, RTI, flag instructions and NOP (43_control_flow.md): one shared definition for each mnemonic, and the
meaning of each row of the opcode table over it. -/

namespace Sys2Proof.Machine

/-- BCC: branch if C is 0 (R331). -/
def bccForm (i : Instr) (d : Int) (s : State) : Host.Outcome State Fault Refusal :=
  runBranch i d (!s.cpu.c) s

/-- 0x90 `BCC label` (R331). -/
def execBcc (d : Int) (s : State) : Host.Outcome State Fault Refusal := bccForm (.bcc d) d s

/-- BCS: branch if C is 1 (R332). -/
def bcsForm (i : Instr) (d : Int) (s : State) : Host.Outcome State Fault Refusal :=
  runBranch i d s.cpu.c s

/-- 0xB0 `BCS label` (R332). -/
def execBcs (d : Int) (s : State) : Host.Outcome State Fault Refusal := bcsForm (.bcs d) d s

/-- BEQ: branch if Z is 1 (R333). -/
def beqForm (i : Instr) (d : Int) (s : State) : Host.Outcome State Fault Refusal :=
  runBranch i d s.cpu.z s

/-- 0xF0 `BEQ label` (R333). -/
def execBeq (d : Int) (s : State) : Host.Outcome State Fault Refusal := beqForm (.beq d) d s

/-- BNE: branch if Z is 0 (R334). -/
def bneForm (i : Instr) (d : Int) (s : State) : Host.Outcome State Fault Refusal :=
  runBranch i d (!s.cpu.z) s

/-- 0xD0 `BNE label` (R334). -/
def execBne (d : Int) (s : State) : Host.Outcome State Fault Refusal := bneForm (.bne d) d s

/-- BMI: branch if N is 1 (R335). -/
def bmiForm (i : Instr) (d : Int) (s : State) : Host.Outcome State Fault Refusal :=
  runBranch i d s.cpu.n s

/-- 0x30 `BMI label` (R335). -/
def execBmi (d : Int) (s : State) : Host.Outcome State Fault Refusal := bmiForm (.bmi d) d s

/-- BPL: branch if N is 0 (R336). -/
def bplForm (i : Instr) (d : Int) (s : State) : Host.Outcome State Fault Refusal :=
  runBranch i d (!s.cpu.n) s

/-- 0x10 `BPL label` (R336). -/
def execBpl (d : Int) (s : State) : Host.Outcome State Fault Refusal := bplForm (.bpl d) d s

/-- BVC: branch if V is 0 (R337). -/
def bvcForm (i : Instr) (d : Int) (s : State) : Host.Outcome State Fault Refusal :=
  runBranch i d (!s.cpu.v) s

/-- 0x50 `BVC label` (R337). -/
def execBvc (d : Int) (s : State) : Host.Outcome State Fault Refusal := bvcForm (.bvc d) d s

/-- BVS: branch if V is 1 (R338). -/
def bvsForm (i : Instr) (d : Int) (s : State) : Host.Outcome State Fault Refusal :=
  runBranch i d s.cpu.v s

/-- 0x70 `BVS label` (R338). -/
def execBvs (d : Int) (s : State) : Host.Outcome State Fault Refusal := bvsForm (.bvs d) d s

/-- JMP absolute (R340). -/
def jmpAbsForm (i : Instr) (a : Word) (s : State) : Host.Outcome State Fault Refusal :=
  .next (finishJump i (s.mapCpu fun c => { c with pc := a }))

/-- JMP indirect, with the page wrap of its pointer (R341, R342). -/
def jmpIndForm (i : Instr) (p : Word) (s : State) : Host.Outcome State Fault Refusal :=
  ((readJumpPointer p s).bind fun t s1 => .ok () (finishJump i (s1.mapCpu fun c => { c with pc := t }))).outcome

/-- 0x4C `JMP $nnnn` (R340). -/
def execJmpAbs (a : Word) (s : State) : Host.Outcome State Fault Refusal := jmpAbsForm (.jmpAbs a) a s
/-- 0x6C `JMP ($nnnn)` (R341). -/
def execJmpInd (p : Word) (s : State) : Host.Outcome State Fault Refusal := jmpIndForm (.jmpInd p) p s

/-- JSR: push PC + 2, the address of its last byte, high byte first; PC takes the operand (R343). -/
def jsrForm (i : Instr) (a : Word) (s : State) : Host.Outcome State Fault Refusal :=
  .next (finishJump i ((pushWord (s.cpu.pc + 2) s).mapCpu fun c => { c with pc := a }))

/-- 0x20 `JSR $nnnn` (R343). -/
def execJsr (a : Word) (s : State) : Host.Outcome State Fault Refusal := jsrForm (.jsr a) a s

/-- RTS: PC takes the pulled word plus 1 (R344). -/
def rtsForm (i : Instr) (s : State) : Host.Outcome State Fault Refusal :=
  .next (finishJump i ((afterPull (afterPull s)).mapCpu fun c => { c with pc := pulledWord s + 1 }))

/-- 0x60 `RTS` (R344). -/
def execRts (s : State) : Host.Outcome State Fault Refusal := rtsForm .rts s

/-- RTI: the return from an interrupt (R345). -/
def rtiForm (i : Instr) (s : State) : Host.Outcome State Fault Refusal :=
  .next (finishJump i (returnFromInterrupt s))

/-- 0x40 `RTI` (R345). -/
def execRti (s : State) : Host.Outcome State Fault Refusal := rtiForm .rti s

/-- BRK: suppressed while I = 1 or inside an NMI handler, and then only PC advances by the row's length 1; otherwise
`interrupt(BRK)` with return address PC + 2 (R346). -/
def brkForm (i : Instr) (s : State) : Host.Outcome State Fault Refusal :=
  if IntKind.brk.suppressed s.cpu then .next (finish i false s)
  else .next (finishJump i (interrupt .brk (s.cpu.pc + 2) s))

/-- 0x00 `BRK` (R346). -/
def execBrk (s : State) : Host.Outcome State Fault Refusal := brkForm .brk s

/-- CLC: C is cleared (R347). -/
def clcForm (i : Instr) (s : State) : Host.Outcome State Fault Refusal :=
  runImplied i (fun c => { c with c := false }) s

/-- 0x18 `CLC` (R347). -/
def execClc (s : State) : Host.Outcome State Fault Refusal := clcForm .clc s

/-- SEC: C is set (R348). -/
def secForm (i : Instr) (s : State) : Host.Outcome State Fault Refusal :=
  runImplied i (fun c => { c with c := true }) s

/-- 0x38 `SEC` (R348). -/
def execSec (s : State) : Host.Outcome State Fault Refusal := secForm .sec s

/-- CLI: I is cleared (R349). -/
def cliForm (i : Instr) (s : State) : Host.Outcome State Fault Refusal :=
  runImplied i (fun c => { c with i := false }) s

/-- 0x58 `CLI` (R349). -/
def execCli (s : State) : Host.Outcome State Fault Refusal := cliForm .cli s

/-- SEI: I is set (R350). -/
def seiForm (i : Instr) (s : State) : Host.Outcome State Fault Refusal :=
  runImplied i (fun c => { c with i := true }) s

/-- 0x78 `SEI` (R350). -/
def execSei (s : State) : Host.Outcome State Fault Refusal := seiForm .sei s

/-- CLD: D is cleared (R351). -/
def cldForm (i : Instr) (s : State) : Host.Outcome State Fault Refusal :=
  runImplied i (fun c => { c with d := false }) s

/-- 0xD8 `CLD` (R351). -/
def execCld (s : State) : Host.Outcome State Fault Refusal := cldForm .cld s

/-- SED: D is set (R352). -/
def sedForm (i : Instr) (s : State) : Host.Outcome State Fault Refusal :=
  runImplied i (fun c => { c with d := true }) s

/-- 0xF8 `SED` (R352). -/
def execSed (s : State) : Host.Outcome State Fault Refusal := sedForm .sed s

/-- CLV: V is cleared (R353). -/
def clvForm (i : Instr) (s : State) : Host.Outcome State Fault Refusal :=
  runImplied i (fun c => { c with v := false }) s

/-- 0xB8 `CLV` (R353). -/
def execClv (s : State) : Host.Outcome State Fault Refusal := clvForm .clv s

/-- NOP with no operand: PC advances (R354, R394). -/
def nopForm (i : Instr) (s : State) : Host.Outcome State Fault Refusal :=
  runImplied i (fun c => c) s

/-- NOP with an operand: a memory mode performs its one read, and the value is discarded (R394). -/
def nopReadForm (i : Instr) (o : ValueOperand) (s : State) : Host.Outcome State Fault Refusal :=
  runRead i o (fun _ c => c) s

/-- 0x04 `NOP $nn` (R394). -/
def execNop04 (z : Byte) (s : State) : Host.Outcome State Fault Refusal := nopReadForm (.nop04 z) (.mem (.zp z)) s
/-- 0x0C `NOP $nnnn` (R394). -/
def execNop0C (a : Word) (s : State) : Host.Outcome State Fault Refusal := nopReadForm (.nop0C a) (.mem (.abs a)) s
/-- 0x14 `NOP $nn,X` (R394). -/
def execNop14 (z : Byte) (s : State) : Host.Outcome State Fault Refusal := nopReadForm (.nop14 z) (.mem (.zpx z)) s
/-- 0x1A `NOP` (R394). -/
def execNop1A (s : State) : Host.Outcome State Fault Refusal := nopForm .nop1A s
/-- 0x1C `NOP $nnnn,X` (R394). -/
def execNop1C (a : Word) (s : State) : Host.Outcome State Fault Refusal := nopReadForm (.nop1C a) (.mem (.abx a)) s
/-- 0x34 `NOP $nn,X` (R394). -/
def execNop34 (z : Byte) (s : State) : Host.Outcome State Fault Refusal := nopReadForm (.nop34 z) (.mem (.zpx z)) s
/-- 0x3A `NOP` (R394). -/
def execNop3A (s : State) : Host.Outcome State Fault Refusal := nopForm .nop3A s
/-- 0x3C `NOP $nnnn,X` (R394). -/
def execNop3C (a : Word) (s : State) : Host.Outcome State Fault Refusal := nopReadForm (.nop3C a) (.mem (.abx a)) s
/-- 0x44 `NOP $nn` (R394). -/
def execNop44 (z : Byte) (s : State) : Host.Outcome State Fault Refusal := nopReadForm (.nop44 z) (.mem (.zp z)) s
/-- 0x54 `NOP $nn,X` (R394). -/
def execNop54 (z : Byte) (s : State) : Host.Outcome State Fault Refusal := nopReadForm (.nop54 z) (.mem (.zpx z)) s
/-- 0x5A `NOP` (R394). -/
def execNop5A (s : State) : Host.Outcome State Fault Refusal := nopForm .nop5A s
/-- 0x5C `NOP $nnnn,X` (R394). -/
def execNop5C (a : Word) (s : State) : Host.Outcome State Fault Refusal := nopReadForm (.nop5C a) (.mem (.abx a)) s
/-- 0x64 `NOP $nn` (R394). -/
def execNop64 (z : Byte) (s : State) : Host.Outcome State Fault Refusal := nopReadForm (.nop64 z) (.mem (.zp z)) s
/-- 0x74 `NOP $nn,X` (R394). -/
def execNop74 (z : Byte) (s : State) : Host.Outcome State Fault Refusal := nopReadForm (.nop74 z) (.mem (.zpx z)) s
/-- 0x7A `NOP` (R394). -/
def execNop7A (s : State) : Host.Outcome State Fault Refusal := nopForm .nop7A s
/-- 0x7C `NOP $nnnn,X` (R394). -/
def execNop7C (a : Word) (s : State) : Host.Outcome State Fault Refusal := nopReadForm (.nop7C a) (.mem (.abx a)) s
/-- 0x80 `NOP #$nn` (R394). -/
def execNop80 (v : Byte) (s : State) : Host.Outcome State Fault Refusal := nopReadForm (.nop80 v) (.imm v) s
/-- 0x82 `NOP #$nn` (R394). -/
def execNop82 (v : Byte) (s : State) : Host.Outcome State Fault Refusal := nopReadForm (.nop82 v) (.imm v) s
/-- 0x89 `NOP #$nn` (R394). -/
def execNop89 (v : Byte) (s : State) : Host.Outcome State Fault Refusal := nopReadForm (.nop89 v) (.imm v) s
/-- 0xC2 `NOP #$nn` (R394). -/
def execNopC2 (v : Byte) (s : State) : Host.Outcome State Fault Refusal := nopReadForm (.nopC2 v) (.imm v) s
/-- 0xD4 `NOP $nn,X` (R394). -/
def execNopD4 (z : Byte) (s : State) : Host.Outcome State Fault Refusal := nopReadForm (.nopD4 z) (.mem (.zpx z)) s
/-- 0xDA `NOP` (R394). -/
def execNopDA (s : State) : Host.Outcome State Fault Refusal := nopForm .nopDA s
/-- 0xDC `NOP $nnnn,X` (R394). -/
def execNopDC (a : Word) (s : State) : Host.Outcome State Fault Refusal := nopReadForm (.nopDC a) (.mem (.abx a)) s
/-- 0xE2 `NOP #$nn` (R394). -/
def execNopE2 (v : Byte) (s : State) : Host.Outcome State Fault Refusal := nopReadForm (.nopE2 v) (.imm v) s
/-- 0xEA `NOP` (R354). -/
def execNop (s : State) : Host.Outcome State Fault Refusal := nopForm .nop s
/-- 0xF4 `NOP $nn,X` (R394). -/
def execNopF4 (z : Byte) (s : State) : Host.Outcome State Fault Refusal := nopReadForm (.nopF4 z) (.mem (.zpx z)) s
/-- 0xFA `NOP` (R394). -/
def execNopFA (s : State) : Host.Outcome State Fault Refusal := nopForm .nopFA s
/-- 0xFC `NOP $nnnn,X` (R394). -/
def execNopFC (a : Word) (s : State) : Host.Outcome State Fault Refusal := nopReadForm (.nopFC a) (.mem (.abx a)) s

end Sys2Proof.Machine
end

