-- ==== Sys2Proof/Machine/LoadStore.lean ====
section
/-! DEFINITION. Loads, stores, transfers and stack instructions (41_load_store_transfer.md): one shared definition for each mnemonic, and the
meaning of each row of the opcode table over it. -/

namespace Sys2Proof.Machine

/-- LDA: A takes the value read, with N and Z (R230). -/
def ldaForm (i : Instr) (o : ValueOperand) (s : State) : Host.Outcome State Fault Refusal :=
  runRead i o (fun v => Cpu.loadA v) s

/-- 0xA1 `LDA ($nn,X)` (R230). -/
def execLdaIzx (z : Byte) (s : State) : Host.Outcome State Fault Refusal := ldaForm (.ldaIzx z) (.mem (.izx z)) s
/-- 0xA5 `LDA $nn` (R230). -/
def execLdaZp (z : Byte) (s : State) : Host.Outcome State Fault Refusal := ldaForm (.ldaZp z) (.mem (.zp z)) s
/-- 0xA9 `LDA #$nn` (R230). -/
def execLdaImm (v : Byte) (s : State) : Host.Outcome State Fault Refusal := ldaForm (.ldaImm v) (.imm v) s
/-- 0xAD `LDA $nnnn` (R230). -/
def execLdaAbs (a : Word) (s : State) : Host.Outcome State Fault Refusal := ldaForm (.ldaAbs a) (.mem (.abs a)) s
/-- 0xB1 `LDA ($nn),Y` (R230). -/
def execLdaIzy (z : Byte) (s : State) : Host.Outcome State Fault Refusal := ldaForm (.ldaIzy z) (.mem (.izy z)) s
/-- 0xB5 `LDA $nn,X` (R230). -/
def execLdaZpx (z : Byte) (s : State) : Host.Outcome State Fault Refusal := ldaForm (.ldaZpx z) (.mem (.zpx z)) s
/-- 0xB9 `LDA $nnnn,Y` (R230). -/
def execLdaAby (a : Word) (s : State) : Host.Outcome State Fault Refusal := ldaForm (.ldaAby a) (.mem (.aby a)) s
/-- 0xBD `LDA $nnnn,X` (R230). -/
def execLdaAbx (a : Word) (s : State) : Host.Outcome State Fault Refusal := ldaForm (.ldaAbx a) (.mem (.abx a)) s

/-- LDX: X takes the value read, with N and Z (R231). -/
def ldxForm (i : Instr) (o : ValueOperand) (s : State) : Host.Outcome State Fault Refusal :=
  runRead i o (fun v => Cpu.loadX v) s

/-- 0xA2 `LDX #$nn` (R231). -/
def execLdxImm (v : Byte) (s : State) : Host.Outcome State Fault Refusal := ldxForm (.ldxImm v) (.imm v) s
/-- 0xA6 `LDX $nn` (R231). -/
def execLdxZp (z : Byte) (s : State) : Host.Outcome State Fault Refusal := ldxForm (.ldxZp z) (.mem (.zp z)) s
/-- 0xAE `LDX $nnnn` (R231). -/
def execLdxAbs (a : Word) (s : State) : Host.Outcome State Fault Refusal := ldxForm (.ldxAbs a) (.mem (.abs a)) s
/-- 0xB6 `LDX $nn,Y` (R231). -/
def execLdxZpy (z : Byte) (s : State) : Host.Outcome State Fault Refusal := ldxForm (.ldxZpy z) (.mem (.zpy z)) s
/-- 0xBE `LDX $nnnn,Y` (R231). -/
def execLdxAby (a : Word) (s : State) : Host.Outcome State Fault Refusal := ldxForm (.ldxAby a) (.mem (.aby a)) s

/-- LDY: Y takes the value read, with N and Z (R232). -/
def ldyForm (i : Instr) (o : ValueOperand) (s : State) : Host.Outcome State Fault Refusal :=
  runRead i o (fun v => Cpu.loadY v) s

/-- 0xA0 `LDY #$nn` (R232). -/
def execLdyImm (v : Byte) (s : State) : Host.Outcome State Fault Refusal := ldyForm (.ldyImm v) (.imm v) s
/-- 0xA4 `LDY $nn` (R232). -/
def execLdyZp (z : Byte) (s : State) : Host.Outcome State Fault Refusal := ldyForm (.ldyZp z) (.mem (.zp z)) s
/-- 0xAC `LDY $nnnn` (R232). -/
def execLdyAbs (a : Word) (s : State) : Host.Outcome State Fault Refusal := ldyForm (.ldyAbs a) (.mem (.abs a)) s
/-- 0xB4 `LDY $nn,X` (R232). -/
def execLdyZpx (z : Byte) (s : State) : Host.Outcome State Fault Refusal := ldyForm (.ldyZpx z) (.mem (.zpx z)) s
/-- 0xBC `LDY $nnnn,X` (R232). -/
def execLdyAbx (a : Word) (s : State) : Host.Outcome State Fault Refusal := ldyForm (.ldyAbx a) (.mem (.abx a)) s

/-- STA: A is stored; no flag (R233). -/
def staForm (i : Instr) (m : MemOperand) (s : State) : Host.Outcome State Fault Refusal :=
  runStore i m (fun c => c.a) s

/-- 0x81 `STA ($nn,X)` (R233). -/
def execStaIzx (z : Byte) (s : State) : Host.Outcome State Fault Refusal := staForm (.staIzx z) (.izx z) s
/-- 0x85 `STA $nn` (R233). -/
def execStaZp (z : Byte) (s : State) : Host.Outcome State Fault Refusal := staForm (.staZp z) (.zp z) s
/-- 0x8D `STA $nnnn` (R233). -/
def execStaAbs (a : Word) (s : State) : Host.Outcome State Fault Refusal := staForm (.staAbs a) (.abs a) s
/-- 0x91 `STA ($nn),Y` (R233). -/
def execStaIzy (z : Byte) (s : State) : Host.Outcome State Fault Refusal := staForm (.staIzy z) (.izy z) s
/-- 0x95 `STA $nn,X` (R233). -/
def execStaZpx (z : Byte) (s : State) : Host.Outcome State Fault Refusal := staForm (.staZpx z) (.zpx z) s
/-- 0x99 `STA $nnnn,Y` (R233). -/
def execStaAby (a : Word) (s : State) : Host.Outcome State Fault Refusal := staForm (.staAby a) (.aby a) s
/-- 0x9D `STA $nnnn,X` (R233). -/
def execStaAbx (a : Word) (s : State) : Host.Outcome State Fault Refusal := staForm (.staAbx a) (.abx a) s

/-- STX: X is stored; no flag (R234). -/
def stxForm (i : Instr) (m : MemOperand) (s : State) : Host.Outcome State Fault Refusal :=
  runStore i m (fun c => c.x) s

/-- 0x86 `STX $nn` (R234). -/
def execStxZp (z : Byte) (s : State) : Host.Outcome State Fault Refusal := stxForm (.stxZp z) (.zp z) s
/-- 0x8E `STX $nnnn` (R234). -/
def execStxAbs (a : Word) (s : State) : Host.Outcome State Fault Refusal := stxForm (.stxAbs a) (.abs a) s
/-- 0x96 `STX $nn,Y` (R234). -/
def execStxZpy (z : Byte) (s : State) : Host.Outcome State Fault Refusal := stxForm (.stxZpy z) (.zpy z) s

/-- STY: Y is stored; no flag (R235). -/
def styForm (i : Instr) (m : MemOperand) (s : State) : Host.Outcome State Fault Refusal :=
  runStore i m (fun c => c.y) s

/-- 0x84 `STY $nn` (R235). -/
def execStyZp (z : Byte) (s : State) : Host.Outcome State Fault Refusal := styForm (.styZp z) (.zp z) s
/-- 0x8C `STY $nnnn` (R235). -/
def execStyAbs (a : Word) (s : State) : Host.Outcome State Fault Refusal := styForm (.styAbs a) (.abs a) s
/-- 0x94 `STY $nn,X` (R235). -/
def execStyZpx (z : Byte) (s : State) : Host.Outcome State Fault Refusal := styForm (.styZpx z) (.zpx z) s

/-- TAX: X takes A, with N and Z (R236). -/
def taxForm (i : Instr) (s : State) : Host.Outcome State Fault Refusal :=
  runImplied i (fun c => Cpu.loadX c.a c) s

/-- 0xAA `TAX` (R236). -/
def execTax (s : State) : Host.Outcome State Fault Refusal := taxForm .tax s

/-- TAY: Y takes A, with N and Z (R237). -/
def tayForm (i : Instr) (s : State) : Host.Outcome State Fault Refusal :=
  runImplied i (fun c => Cpu.loadY c.a c) s

/-- 0xA8 `TAY` (R237). -/
def execTay (s : State) : Host.Outcome State Fault Refusal := tayForm .tay s

/-- TXA: A takes X, with N and Z (R238). -/
def txaForm (i : Instr) (s : State) : Host.Outcome State Fault Refusal :=
  runImplied i (fun c => Cpu.loadA c.x c) s

/-- 0x8A `TXA` (R238). -/
def execTxa (s : State) : Host.Outcome State Fault Refusal := txaForm .txa s

/-- TYA: A takes Y, with N and Z (R239). -/
def tyaForm (i : Instr) (s : State) : Host.Outcome State Fault Refusal :=
  runImplied i (fun c => Cpu.loadA c.y c) s

/-- 0x98 `TYA` (R239). -/
def execTya (s : State) : Host.Outcome State Fault Refusal := tyaForm .tya s

/-- TSX: X takes SP, with N and Z (R240). -/
def tsxForm (i : Instr) (s : State) : Host.Outcome State Fault Refusal :=
  runImplied i (fun c => Cpu.loadX c.sp c) s

/-- 0xBA `TSX` (R240). -/
def execTsx (s : State) : Host.Outcome State Fault Refusal := tsxForm .tsx s

/-- TXS: SP takes X; no flag (R241). -/
def txsForm (i : Instr) (s : State) : Host.Outcome State Fault Refusal :=
  runImplied i (fun c => { c with sp := c.x }) s

/-- 0x9A `TXS` (R241). -/
def execTxs (s : State) : Host.Outcome State Fault Refusal := txsForm .txs s

/-- PHA: push A; no flag (R242). -/
def phaForm (i : Instr) (s : State) : Host.Outcome State Fault Refusal :=
  .next (finish i false (push s.cpu.a s))

/-- 0x48 `PHA` (R242). -/
def execPha (s : State) : Host.Outcome State Fault Refusal := phaForm .pha s

/-- PHP: push the status with bits 5 and 4 set; no flag (R243). -/
def phpForm (i : Instr) (s : State) : Host.Outcome State Fault Refusal :=
  .next (finish i false (push (s.cpu.pushedP true) s))

/-- 0x08 `PHP` (R243). -/
def execPhp (s : State) : Host.Outcome State Fault Refusal := phpForm .php s

/-- PLA: A takes the pulled byte, with N and Z (R244). -/
def plaForm (i : Instr) (s : State) : Host.Outcome State Fault Refusal :=
  .next (finish i false ((afterPull s).mapCpu (Cpu.loadA (pulled s))))

/-- 0x68 `PLA` (R244). -/
def execPla (s : State) : Host.Outcome State Fault Refusal := plaForm .pla s

/-- PLP: the flags take the pulled byte, its bits 5 and 4 discarded (R245). -/
def plpForm (i : Instr) (s : State) : Host.Outcome State Fault Refusal :=
  .next (finish i false ((afterPull s).mapCpu (Cpu.setP (pulled s))))

/-- 0x28 `PLP` (R245). -/
def execPlp (s : State) : Host.Outcome State Fault Refusal := plpForm .plp s

end Sys2Proof.Machine
end

