-- ==== Sys2Proof/Machine/Unofficial.lean ====
section
/-! DEFINITION. Unofficial opcodes (44_unofficial.md), the faulting ones among them: one shared definition for
each mnemonic, and the meaning of each row of the opcode table over it. -/

namespace Sys2Proof.Machine

/-- SLO: shift left, then or into A (R381). -/
def sloForm (i : Instr) (o : ValueOperand) (s : State) : Host.Outcome State Fault Refusal :=
  runModify i o (fun v _ => shiftLeft v false)
    (fun v => Cpu.setC (v.getLsbD 7))
    (fun r c => Cpu.loadA (c.a ||| r) c) s

/-- 0x03 `SLO ($nn,X)` (R381). -/
def execSloIzx (z : Byte) (s : State) : Host.Outcome State Fault Refusal := sloForm (.sloIzx z) (.mem (.izx z)) s
/-- 0x07 `SLO $nn` (R381). -/
def execSloZp (z : Byte) (s : State) : Host.Outcome State Fault Refusal := sloForm (.sloZp z) (.mem (.zp z)) s
/-- 0x0F `SLO $nnnn` (R381). -/
def execSloAbs (a : Word) (s : State) : Host.Outcome State Fault Refusal := sloForm (.sloAbs a) (.mem (.abs a)) s
/-- 0x13 `SLO ($nn),Y` (R381). -/
def execSloIzy (z : Byte) (s : State) : Host.Outcome State Fault Refusal := sloForm (.sloIzy z) (.mem (.izy z)) s
/-- 0x17 `SLO $nn,X` (R381). -/
def execSloZpx (z : Byte) (s : State) : Host.Outcome State Fault Refusal := sloForm (.sloZpx z) (.mem (.zpx z)) s
/-- 0x1B `SLO $nnnn,Y` (R381). -/
def execSloAby (a : Word) (s : State) : Host.Outcome State Fault Refusal := sloForm (.sloAby a) (.mem (.aby a)) s
/-- 0x1F `SLO $nnnn,X` (R381). -/
def execSloAbx (a : Word) (s : State) : Host.Outcome State Fault Refusal := sloForm (.sloAbx a) (.mem (.abx a)) s

/-- RLA: rotate left, then and into A (R382). -/
def rlaForm (i : Instr) (o : ValueOperand) (s : State) : Host.Outcome State Fault Refusal :=
  runModify i o (fun v c => shiftLeft v c.c)
    (fun v => Cpu.setC (v.getLsbD 7))
    (fun r c => Cpu.loadA (c.a &&& r) c) s

/-- 0x23 `RLA ($nn,X)` (R382). -/
def execRlaIzx (z : Byte) (s : State) : Host.Outcome State Fault Refusal := rlaForm (.rlaIzx z) (.mem (.izx z)) s
/-- 0x27 `RLA $nn` (R382). -/
def execRlaZp (z : Byte) (s : State) : Host.Outcome State Fault Refusal := rlaForm (.rlaZp z) (.mem (.zp z)) s
/-- 0x2F `RLA $nnnn` (R382). -/
def execRlaAbs (a : Word) (s : State) : Host.Outcome State Fault Refusal := rlaForm (.rlaAbs a) (.mem (.abs a)) s
/-- 0x33 `RLA ($nn),Y` (R382). -/
def execRlaIzy (z : Byte) (s : State) : Host.Outcome State Fault Refusal := rlaForm (.rlaIzy z) (.mem (.izy z)) s
/-- 0x37 `RLA $nn,X` (R382). -/
def execRlaZpx (z : Byte) (s : State) : Host.Outcome State Fault Refusal := rlaForm (.rlaZpx z) (.mem (.zpx z)) s
/-- 0x3B `RLA $nnnn,Y` (R382). -/
def execRlaAby (a : Word) (s : State) : Host.Outcome State Fault Refusal := rlaForm (.rlaAby a) (.mem (.aby a)) s
/-- 0x3F `RLA $nnnn,X` (R382). -/
def execRlaAbx (a : Word) (s : State) : Host.Outcome State Fault Refusal := rlaForm (.rlaAbx a) (.mem (.abx a)) s

/-- SRE: shift right, then exclusive or into A (R383). -/
def sreForm (i : Instr) (o : ValueOperand) (s : State) : Host.Outcome State Fault Refusal :=
  runModify i o (fun v _ => shiftRight v false)
    (fun v => Cpu.setC (v.getLsbD 0))
    (fun r c => Cpu.loadA (c.a ^^^ r) c) s

/-- 0x43 `SRE ($nn,X)` (R383). -/
def execSreIzx (z : Byte) (s : State) : Host.Outcome State Fault Refusal := sreForm (.sreIzx z) (.mem (.izx z)) s
/-- 0x47 `SRE $nn` (R383). -/
def execSreZp (z : Byte) (s : State) : Host.Outcome State Fault Refusal := sreForm (.sreZp z) (.mem (.zp z)) s
/-- 0x4F `SRE $nnnn` (R383). -/
def execSreAbs (a : Word) (s : State) : Host.Outcome State Fault Refusal := sreForm (.sreAbs a) (.mem (.abs a)) s
/-- 0x53 `SRE ($nn),Y` (R383). -/
def execSreIzy (z : Byte) (s : State) : Host.Outcome State Fault Refusal := sreForm (.sreIzy z) (.mem (.izy z)) s
/-- 0x57 `SRE $nn,X` (R383). -/
def execSreZpx (z : Byte) (s : State) : Host.Outcome State Fault Refusal := sreForm (.sreZpx z) (.mem (.zpx z)) s
/-- 0x5B `SRE $nnnn,Y` (R383). -/
def execSreAby (a : Word) (s : State) : Host.Outcome State Fault Refusal := sreForm (.sreAby a) (.mem (.aby a)) s
/-- 0x5F `SRE $nnnn,X` (R383). -/
def execSreAbx (a : Word) (s : State) : Host.Outcome State Fault Refusal := sreForm (.sreAbx a) (.mem (.abx a)) s

/-- RRA: rotate right, then add with the carry rotated out (R384). -/
def rraForm (i : Instr) (o : ValueOperand) (s : State) : Host.Outcome State Fault Refusal :=
  runModify i o (fun v c => shiftRight v c.c)
    (fun v => Cpu.setC (v.getLsbD 0))
    (fun r => Cpu.addCore r) s

/-- 0x63 `RRA ($nn,X)` (R384). -/
def execRraIzx (z : Byte) (s : State) : Host.Outcome State Fault Refusal := rraForm (.rraIzx z) (.mem (.izx z)) s
/-- 0x67 `RRA $nn` (R384). -/
def execRraZp (z : Byte) (s : State) : Host.Outcome State Fault Refusal := rraForm (.rraZp z) (.mem (.zp z)) s
/-- 0x6F `RRA $nnnn` (R384). -/
def execRraAbs (a : Word) (s : State) : Host.Outcome State Fault Refusal := rraForm (.rraAbs a) (.mem (.abs a)) s
/-- 0x73 `RRA ($nn),Y` (R384). -/
def execRraIzy (z : Byte) (s : State) : Host.Outcome State Fault Refusal := rraForm (.rraIzy z) (.mem (.izy z)) s
/-- 0x77 `RRA $nn,X` (R384). -/
def execRraZpx (z : Byte) (s : State) : Host.Outcome State Fault Refusal := rraForm (.rraZpx z) (.mem (.zpx z)) s
/-- 0x7B `RRA $nnnn,Y` (R384). -/
def execRraAby (a : Word) (s : State) : Host.Outcome State Fault Refusal := rraForm (.rraAby a) (.mem (.aby a)) s
/-- 0x7F `RRA $nnnn,X` (R384). -/
def execRraAbx (a : Word) (s : State) : Host.Outcome State Fault Refusal := rraForm (.rraAbx a) (.mem (.abx a)) s

/-- DCP: decrement, then compare with A (R385). -/
def dcpForm (i : Instr) (o : ValueOperand) (s : State) : Host.Outcome State Fault Refusal :=
  runModify i o (fun v _ => v - 1)
    (fun _ c => c)
    (fun r c => Cpu.compare c.a r c) s

/-- 0xC3 `DCP ($nn,X)` (R385). -/
def execDcpIzx (z : Byte) (s : State) : Host.Outcome State Fault Refusal := dcpForm (.dcpIzx z) (.mem (.izx z)) s
/-- 0xC7 `DCP $nn` (R385). -/
def execDcpZp (z : Byte) (s : State) : Host.Outcome State Fault Refusal := dcpForm (.dcpZp z) (.mem (.zp z)) s
/-- 0xCF `DCP $nnnn` (R385). -/
def execDcpAbs (a : Word) (s : State) : Host.Outcome State Fault Refusal := dcpForm (.dcpAbs a) (.mem (.abs a)) s
/-- 0xD3 `DCP ($nn),Y` (R385). -/
def execDcpIzy (z : Byte) (s : State) : Host.Outcome State Fault Refusal := dcpForm (.dcpIzy z) (.mem (.izy z)) s
/-- 0xD7 `DCP $nn,X` (R385). -/
def execDcpZpx (z : Byte) (s : State) : Host.Outcome State Fault Refusal := dcpForm (.dcpZpx z) (.mem (.zpx z)) s
/-- 0xDB `DCP $nnnn,Y` (R385). -/
def execDcpAby (a : Word) (s : State) : Host.Outcome State Fault Refusal := dcpForm (.dcpAby a) (.mem (.aby a)) s
/-- 0xDF `DCP $nnnn,X` (R385). -/
def execDcpAbx (a : Word) (s : State) : Host.Outcome State Fault Refusal := dcpForm (.dcpAbx a) (.mem (.abx a)) s

/-- ISC: increment, then subtract with borrow (R386). -/
def iscForm (i : Instr) (o : ValueOperand) (s : State) : Host.Outcome State Fault Refusal :=
  runModify i o (fun v _ => v + 1)
    (fun _ c => c)
    (fun r => Cpu.addCore (r ^^^ 0xFF)) s

/-- 0xE3 `ISC ($nn,X)` (R386). -/
def execIscIzx (z : Byte) (s : State) : Host.Outcome State Fault Refusal := iscForm (.iscIzx z) (.mem (.izx z)) s
/-- 0xE7 `ISC $nn` (R386). -/
def execIscZp (z : Byte) (s : State) : Host.Outcome State Fault Refusal := iscForm (.iscZp z) (.mem (.zp z)) s
/-- 0xEF `ISC $nnnn` (R386). -/
def execIscAbs (a : Word) (s : State) : Host.Outcome State Fault Refusal := iscForm (.iscAbs a) (.mem (.abs a)) s
/-- 0xF3 `ISC ($nn),Y` (R386). -/
def execIscIzy (z : Byte) (s : State) : Host.Outcome State Fault Refusal := iscForm (.iscIzy z) (.mem (.izy z)) s
/-- 0xF7 `ISC $nn,X` (R386). -/
def execIscZpx (z : Byte) (s : State) : Host.Outcome State Fault Refusal := iscForm (.iscZpx z) (.mem (.zpx z)) s
/-- 0xFB `ISC $nnnn,Y` (R386). -/
def execIscAby (a : Word) (s : State) : Host.Outcome State Fault Refusal := iscForm (.iscAby a) (.mem (.aby a)) s
/-- 0xFF `ISC $nnnn,X` (R386). -/
def execIscAbx (a : Word) (s : State) : Host.Outcome State Fault Refusal := iscForm (.iscAbx a) (.mem (.abx a)) s

/-- LAX: A and X take the value read, with N and Z (R387). -/
def laxForm (i : Instr) (o : ValueOperand) (s : State) : Host.Outcome State Fault Refusal :=
  runRead i o (fun v c => Cpu.loadX v (Cpu.loadA v c)) s

/-- 0xA3 `LAX ($nn,X)` (R387). -/
def execLaxIzx (z : Byte) (s : State) : Host.Outcome State Fault Refusal := laxForm (.laxIzx z) (.mem (.izx z)) s
/-- 0xA7 `LAX $nn` (R387). -/
def execLaxZp (z : Byte) (s : State) : Host.Outcome State Fault Refusal := laxForm (.laxZp z) (.mem (.zp z)) s
/-- 0xAF `LAX $nnnn` (R387). -/
def execLaxAbs (a : Word) (s : State) : Host.Outcome State Fault Refusal := laxForm (.laxAbs a) (.mem (.abs a)) s
/-- 0xB3 `LAX ($nn),Y` (R387). -/
def execLaxIzy (z : Byte) (s : State) : Host.Outcome State Fault Refusal := laxForm (.laxIzy z) (.mem (.izy z)) s
/-- 0xB7 `LAX $nn,Y` (R387). -/
def execLaxZpy (z : Byte) (s : State) : Host.Outcome State Fault Refusal := laxForm (.laxZpy z) (.mem (.zpy z)) s
/-- 0xBF `LAX $nnnn,Y` (R387). -/
def execLaxAby (a : Word) (s : State) : Host.Outcome State Fault Refusal := laxForm (.laxAby a) (.mem (.aby a)) s

/-- SAX: A and X is stored; no flag (R388). -/
def saxForm (i : Instr) (m : MemOperand) (s : State) : Host.Outcome State Fault Refusal :=
  runStore i m (fun c => c.a &&& c.x) s

/-- 0x83 `SAX ($nn,X)` (R388). -/
def execSaxIzx (z : Byte) (s : State) : Host.Outcome State Fault Refusal := saxForm (.saxIzx z) (.izx z) s
/-- 0x87 `SAX $nn` (R388). -/
def execSaxZp (z : Byte) (s : State) : Host.Outcome State Fault Refusal := saxForm (.saxZp z) (.zp z) s
/-- 0x8F `SAX $nnnn` (R388). -/
def execSaxAbs (a : Word) (s : State) : Host.Outcome State Fault Refusal := saxForm (.saxAbs a) (.abs a) s
/-- 0x97 `SAX $nn,Y` (R388). -/
def execSaxZpy (z : Byte) (s : State) : Host.Outcome State Fault Refusal := saxForm (.saxZpy z) (.zpy z) s

/-- ANC: A and the value, with N and Z; C takes N (R389). -/
def ancForm (i : Instr) (o : ValueOperand) (s : State) : Host.Outcome State Fault Refusal :=
  runRead i o (fun v c => (Cpu.loadA (c.a &&& v) c).setC ((c.a &&& v).getLsbD 7)) s

/-- 0x0B `ANC #$nn` (R389). -/
def execAnc0B (v : Byte) (s : State) : Host.Outcome State Fault Refusal := ancForm (.anc0B v) (.imm v) s
/-- 0x2B `ANC #$nn` (R389). -/
def execAnc2B (v : Byte) (s : State) : Host.Outcome State Fault Refusal := ancForm (.anc2B v) (.imm v) s

/-- ALR: A and the value, shifted right; C takes bit 0 (R390). -/
def alrForm (i : Instr) (o : ValueOperand) (s : State) : Host.Outcome State Fault Refusal :=
  runRead i o (fun v c => Cpu.loadA (shiftRight (c.a &&& v) false) (c.setC ((c.a &&& v).getLsbD 0))) s

/-- 0x4B `ALR #$nn` (R390). -/
def execAlrImm (v : Byte) (s : State) : Host.Outcome State Fault Refusal := alrForm (.alrImm v) (.imm v) s

/-- The registers after ARR: A and the value, rotated right; C is bit 6 of the result and V bits 6 and 5 compared
(R391). -/
def arrCpu (v : Byte) (c : Cpu) : Cpu :=
  let r := shiftRight (c.a &&& v) c.c
  { Cpu.loadA r c with c := r.getLsbD 6, v := r.getLsbD 6 ^^ r.getLsbD 5 }

/-- ARR (R391). -/
def arrForm (i : Instr) (o : ValueOperand) (s : State) : Host.Outcome State Fault Refusal :=
  runRead i o arrCpu s

/-- 0x6B `ARR #$nn` (R391). -/
def execArrImm (v : Byte) (s : State) : Host.Outcome State Fault Refusal := arrForm (.arrImm v) (.imm v) s

/-- AXS: X takes (A and X) minus the value; C is no borrow (R392). -/
def axsForm (i : Instr) (o : ValueOperand) (s : State) : Host.Outcome State Fault Refusal :=
  runRead i o (fun v c => Cpu.loadX ((c.a &&& c.x) - v) (c.setC (decide (v.toNat ≤ (c.a &&& c.x).toNat)))) s

/-- 0xCB `AXS #$nn` (R392). -/
def execAxsImm (v : Byte) (s : State) : Host.Outcome State Fault Refusal := axsForm (.axsImm v) (.imm v) s

/-- 0x02 `JAM` (R397). -/
def execJam02 (s : State) : Host.Outcome State Fault Refusal := runFault s
/-- 0x12 `JAM` (R397). -/
def execJam12 (s : State) : Host.Outcome State Fault Refusal := runFault s
/-- 0x22 `JAM` (R397). -/
def execJam22 (s : State) : Host.Outcome State Fault Refusal := runFault s
/-- 0x32 `JAM` (R397). -/
def execJam32 (s : State) : Host.Outcome State Fault Refusal := runFault s
/-- 0x42 `JAM` (R397). -/
def execJam42 (s : State) : Host.Outcome State Fault Refusal := runFault s
/-- 0x52 `JAM` (R397). -/
def execJam52 (s : State) : Host.Outcome State Fault Refusal := runFault s
/-- 0x62 `JAM` (R397). -/
def execJam62 (s : State) : Host.Outcome State Fault Refusal := runFault s
/-- 0x72 `JAM` (R397). -/
def execJam72 (s : State) : Host.Outcome State Fault Refusal := runFault s
/-- 0x92 `JAM` (R397). -/
def execJam92 (s : State) : Host.Outcome State Fault Refusal := runFault s
/-- 0xB2 `JAM` (R397). -/
def execJamB2 (s : State) : Host.Outcome State Fault Refusal := runFault s
/-- 0xD2 `JAM` (R397). -/
def execJamD2 (s : State) : Host.Outcome State Fault Refusal := runFault s
/-- 0xF2 `JAM` (R397). -/
def execJamF2 (s : State) : Host.Outcome State Fault Refusal := runFault s

/-- 0x8B `XAA #$nn` (R398). -/
def execXaaImm (_ : Byte) (s : State) : Host.Outcome State Fault Refusal := runFault s

/-- 0x93 `AHX ($nn),Y` (R399). -/
def execAhxIzy (_ : Byte) (s : State) : Host.Outcome State Fault Refusal := runFault s
/-- 0x9F `AHX $nnnn,Y` (R399). -/
def execAhxAby (_ : Word) (s : State) : Host.Outcome State Fault Refusal := runFault s

/-- 0x9B `TAS $nnnn,Y` (R400). -/
def execTasAby (_ : Word) (s : State) : Host.Outcome State Fault Refusal := runFault s

/-- 0x9C `SHY $nnnn,X` (R401). -/
def execShyAbx (_ : Word) (s : State) : Host.Outcome State Fault Refusal := runFault s

/-- 0x9E `SHX $nnnn,Y` (R402). -/
def execShxAby (_ : Word) (s : State) : Host.Outcome State Fault Refusal := runFault s

/-- 0xAB `LXA #$nn` (R403). -/
def execLxaImm (_ : Byte) (s : State) : Host.Outcome State Fault Refusal := runFault s

/-- 0xBB `LAS $nnnn,Y` (R404). -/
def execLasAby (_ : Word) (s : State) : Host.Outcome State Fault Refusal := runFault s

end Sys2Proof.Machine
end

