-- ==== Sys2Proof/Machine/PpuRender.lean ====
section
/-! DEFINITION. The PPU dot machine (46_ppu_rendering.md): the background pixel, the scroll updates, sprite-0 hit, the
sprite compositor, VBlank with its NMI, and `run`. -/

namespace Sys2Proof.Machine

/-! ## Mask and address views -/

/-- `Rendering()`: background or sprites enabled (R474). -/
def Ppu.rendering (p : Ppu) : Bool := p.mask.getLsbD 3 || p.mask.getLsbD 4

/-- `NtAddr(v)` (R477). -/
def ntAddr (v : BitVec 15) : Nat := 0x2000 ||| (v.toNat &&& 0x0FFF)

/-- `AtAddr(v)` (R478). -/
def atAddr (v : BitVec 15) : Nat :=
  0x23C0 ||| (v.toNat &&& 0x0C00) ||| ((v.toNat >>> 4) &&& 0x38) ||| ((v.toNat >>> 2) &&& 0x07)

/-- `AtShift(v)` (R478). -/
def atShift (v : BitVec 15) : Nat := ((v.toNat >>> 4) &&& 4) ||| (v.toNat &&& 2)

/-- The base of the pattern table that a PPUCTRL bit selects (R479). -/
def patternBase (b : Bool) : Nat := if b then 0x1000 else 0x0000

/-- The address of the low plane of row `row` of tile `n` (R479). -/
def patternAddr (base : Nat) (n : Byte) (row : Nat) : Nat := base + 16 * n.toNat + row

/-- The pixel value `{high bit, low bit}` of bit b of the two planes (R479). -/
def planePixel (hi lo : Byte) (b : Nat) : Nat := 2 * (hi.getLsbD b).toNat + (lo.getLsbD b).toNat

/-- The index of a pixel in the output buffers (R53). -/
def pixelIndex (l d : Nat) : Nat := 256 * l + d

/-- Is the pixel background-transparent (R53)? -/
def Ppu.transparent (p : Ppu) (l d : Nat) : Bool := Cells.read true p.bgt (pixelIndex l d)

/-- The colour index of a pixel (R53). -/
def Ppu.colorAt (p : Ppu) (l d : Nat) : BitVec 6 := Cells.read 0 p.color (pixelIndex l d)

/-- Write a pixel's colour index (R476, R496). -/
def Ppu.setColor (l d : Nat) (k : BitVec 6) (p : Ppu) : Ppu :=
  { p with color := Cells.write 0 p.color (pixelIndex l d) k }

/-- Write a pixel's colour index and its background-transparent flag (R476). -/
def Ppu.plot (l d : Nat) (k : BitVec 6) (transparent : Bool) (p : Ppu) : Ppu :=
  { p.setColor l d k with bgt := Cells.write true p.bgt (pixelIndex l d) transparent }

/-! ## Scroll updates (R481 to R485) -/

/-- `IncCoarseX()` (R481). -/
def incCoarseX (v : BitVec 15) : BitVec 15 :=
  if v &&& 0x001F#15 = 31#15 then (v &&& ~~~0x001F#15) ^^^ 0x0400#15 else v + 1#15

/-- `IncY()` (R482). -/
def incY (v : BitVec 15) : BitVec 15 :=
  if v &&& 0x7000#15 ≠ 0x7000#15 then v + 0x1000#15
  else
    let v1 := v &&& ~~~0x7000#15
    let y := (v1 >>> 5) &&& 0x1F#15
    let v2 := if y = 29#15 then v1 ^^^ 0x0800#15 else v1
    let y2 := if y = 29#15 then 0#15 else if y = 31#15 then 0#15 else y + 1#15
    (v2 &&& ~~~0x03E0#15) ||| (y2 <<< 5)

/-- `CopyX()` (R484). -/
def copyX (v t : BitVec 15) : BitVec 15 := (v &&& ~~~0x041F#15) ||| (t &&& 0x041F#15)

/-- `CopyY()` (R485). -/
def copyY (v t : BitVec 15) : BitVec 15 := (v &&& ~~~0x7BE0#15) ||| (t &&& 0x7BE0#15)

/-- The scroll updates of dot (l, d), all only while rendering (R473, R482, R484, R485, R486). -/
def Ppu.scroll (l d : Nat) (p : Ppu) : Ppu :=
  if p.rendering then
    let v1 := if (l < 240 ∨ l = 261) ∧ d = 256 then incY p.v else p.v
    let v2 := if (l < 240 ∨ l = 261) ∧ d = 257 then copyX v1 p.t else v1
    let v3 := if l = 261 ∧ 280 ≤ d ∧ d ≤ 304 then copyY v2 p.t else v2
    { p with v := v3 }
  else p

/-! ## The background pixel (R476, R480) -/

/-- The column counter after a pixel: at 7 it wraps and coarse X moves on (R476). -/
def Ppu.nextColumn (p : Ppu) : Ppu :=
  if p.fx = 7 then { p with fx := 0, v := incCoarseX p.v } else { p with fx := p.fx + 1 }

/-- The background pixel value after clipping: 0 with the background disabled, or in the left 8 dots when they are
hidden (R476, R480). -/
def Ppu.clipBg (p : Ppu) (d c : Nat) : Nat :=
  if p.mask.getLsbD 3 = false ∨ (p.mask.getLsbD 1 = false ∧ d < 8) then 0 else c

/-- Draw background pixel value c with palette id pid and move to the next column (R476). -/
def Ppu.drawBg (l d pid c : Nat) (p : Ppu) : Ppu :=
  (if c = 0 then p.plot l d (p.palRead 0x3F00) true
   else p.plot l d (p.palRead (0x3F00 + 4 * pid + c)) false).nextColumn

/-- `BgPixel(l, d)` (R476): with rendering off the backdrop; else the tile, attribute and pattern bytes of v. -/
def bgPixel (l d : Nat) (s : State) : Res Unit :=
  if s.ppu.rendering then
    (ppuRead (ntAddr s.ppu.v) s).bind fun tile s1 =>
      (ppuRead (atAddr s.ppu.v) s1).bind fun attr s2 =>
        let row := patternAddr (patternBase (s.ppu.ctrl.getLsbD 4)) tile (s.ppu.v.toNat / 0x1000)
        (ppuRead row s2).bind fun lo s3 =>
          (ppuRead (row + 8) s3).bind fun hi s4 =>
            let c := planePixel hi lo (7 - s.ppu.fx.toNat)
            let pid := attr.toNat >>> atShift s.ppu.v &&& 3
            .ok () (s4.mapPpu fun p => p.drawBg l d pid (p.clipBg d c))
  else .ok () (s.mapPpu fun p => p.plot l d (p.palRead 0x3F00) true)

/-! ## Sprites -/

/-- A sprite of OAM: four bytes (R54). -/
structure Sprite where
  y : Byte
  tile : Byte
  attr : Byte
  x : Byte
  deriving DecidableEq, Repr

/-- Sprite i of OAM: bytes 4i to 4i + 3 are y, tile, attribute, x (R54). -/
def Ppu.sprite (p : Ppu) (i : Nat) : Sprite :=
  { y := Memory.read p.oam (4 * i), tile := Memory.read p.oam (4 * i + 1), attr := Memory.read p.oam (4 * i + 2),
    x := Memory.read p.oam (4 * i + 3) }

/-- The tile row that sprite row r shows: 7 − r under vertical flip (R496). -/
def Sprite.tileRow (sp : Sprite) (r : Nat) : Nat := if sp.attr.getLsbD 7 then 7 - r else r

/-- The plane bit that sprite column k shows: k under horizontal flip, else 7 − k (R496). -/
def Sprite.planeBit (sp : Sprite) (k : Nat) : Nat := if sp.attr.getLsbD 6 then k else 7 - k

/-- The address of the low plane of the tile row that sprite row r shows (R496). -/
def Ppu.spriteRowAddr (p : Ppu) (sp : Sprite) (r : Nat) : Nat :=
  patternAddr (patternBase (p.ctrl.getLsbD 3)) sp.tile (sp.tileRow r)

/-- All four mask bits 1 to 4 are set (R506, R507). -/
def Ppu.s0Enabled (p : Ppu) : Bool :=
  p.mask.getLsbD 1 && p.mask.getLsbD 2 && p.mask.getLsbD 3 && p.mask.getLsbD 4

/-- The pixel (l, x) lies in the 8 × 8 box of the sprite, whose top line is y + 1; no wrap-around (R506). -/
def Sprite.covers (sp : Sprite) (l x : Nat) : Bool :=
  decide (sp.y.toNat + 1 ≤ l) && decide (l ≤ sp.y.toNat + 8) && decide (sp.x.toNat ≤ x) && decide (x ≤ sp.x.toNat + 7)

/-- `Sprite0Check(l, x)` (R506). The planes are read high first, as R506 writes them; neither read has an effect. -/
def sprite0Check (l x : Nat) (s : State) : Res Unit :=
  let sp := s.ppu.sprite 0
  if s.ppu.s0Enabled && sp.covers l x then
    let row := s.ppu.spriteRowAddr sp (l - (sp.y.toNat + 1))
    (ppuRead (row + 8) s).bind fun hi s1 =>
      (ppuRead row s1).bind fun lo s2 =>
        let c := planePixel hi lo (sp.planeBit (x - sp.x.toNat))
        .ok () (s2.mapPpu fun p => { p with s0hit := p.s0hit || (decide (c ≠ 0) && !p.transparent l x) })
  else .ok () s

/-- One pixel of the compositor: column k of a sprite row on a line, plane bytes hi and lo (R496). -/
def Ppu.spritePixel (sp : Sprite) (line : Nat) (hi lo : Byte) (k : Nat) (p : Ppu) : Ppu :=
  let col := sp.x.toNat + k
  let c := planePixel hi lo (sp.planeBit k)
  if col < 256 ∧ (p.mask.getLsbD 2 = true ∨ 8 ≤ col) ∧ c ≠ 0 ∧
      (sp.attr.getLsbD 5 = false ∨ p.transparent line col = true) then
    p.setColor line col (p.palRead (0x3F10 + 4 * (sp.attr.toNat % 4) + c))
  else p

/-- Columns k, k + 1, …, of a sprite row, n of them (R496). -/
def Ppu.spriteColumns (sp : Sprite) (line : Nat) (hi lo : Byte) (ks : List Nat) (p : Ppu) : Ppu :=
  match ks with
  | [] => p
  | k :: ks => Ppu.spriteColumns sp line hi lo ks (p.spritePixel sp line hi lo k)

/-- Row r of a sprite; a row at line 240 or below is skipped (R496). -/
def spriteRow (sp : Sprite) (r : Nat) (s : State) : Res Unit :=
  let line := sp.y.toNat + 1 + r
  if line < 240 then
    let row := s.ppu.spriteRowAddr sp r
    (ppuRead row s).bind fun lo s1 =>
      (ppuRead (row + 8) s1).bind fun hi s2 =>
        .ok () (s2.mapPpu (Ppu.spriteColumns sp line hi lo (List.range 8)))
  else .ok () s

/-- Sprite i: its eight rows (R496). -/
def compositeSprite (i : Nat) (s : State) : Res Unit :=
  Res.forEach (spriteRow (s.ppu.sprite i)) (List.range 8) s

/-- `SpriteOrder()` (R498). -/
def spriteSequence (o : SpriteOrder) : List Nat :=
  match o with
  | .ascending => List.range 64
  | .descending => (List.range 64).reverse

/-- `Composite()` (R496): nothing with sprites disabled, else every sprite in `SPRITE_ORDER`. -/
def composite (s : State) : Res Unit :=
  if s.ppu.mask.getLsbD 4 then Res.forEach compositeSprite (spriteSequence s.params.spriteOrder) s else .ok () s

/-! ## VBlank and the dot -/

/-- `ClearFlags()` (R492). -/
def Ppu.clearFlags (p : Ppu) : Ppu := { p with vblank := false, s0hit := false }

/-- The start of VBlank: the flag is set, and with ctrl[7] = 1 the NMI is entered at once (R490, R491, R673). -/
def vblankStart (s : State) : State :=
  let s1 := s.mapPpu fun p => { p with vblank := true }
  if s1.ppu.ctrl.getLsbD 7 then interrupt .nmi s1.cpu.pc s1 else s1

/-- The actions of dot (l, d) before its pixel: the flags clear at (261, 0), the column counter loads at dot 0 of a
visible line (R473, R475, R492). -/
def Ppu.dotStart (l d : Nat) (p : Ppu) : Ppu :=
  let p1 := if l = 261 ∧ d = 0 then p.clearFlags else p
  if l < 240 ∧ d = 0 then { p1 with fx := p1.x } else p1

/-- `Dot(l, d)` (R473). -/
def dotAt (l d : Nat) (s : State) : Res Unit :=
  let s1 := s.mapPpu (Ppu.dotStart l d)
  (if l < 240 ∧ d < 256 then bgPixel l d s1 else .ok () s1).bind fun _ s2 =>
    (if l < 240 ∧ 2 ≤ d ∧ d ≤ 257 then sprite0Check l (d - 2) s2 else .ok () s2).bind fun _ s3 =>
      let s4 := s3.mapPpu (Ppu.scroll l d)
      if l = 241 ∧ d = 1 then (composite s4).bind fun _ s5 => .ok () (vblankStart s5) else .ok () s4

/-- The counters after a dot (R471). -/
def Ppu.advance (p : Ppu) : Ppu :=
  if p.dots + 1 = 341 then
    { p with dots := 0, lines := if p.lines + 1 = 262 then 0 else p.lines + 1 }
  else { p with dots := p.dots + 1 }

/-- The dot at these counters is the frame's last: advancing wraps the line counter (R471). -/
def Ppu.lastDot (p : Ppu) : Bool := decide (p.dots + 1 = 341) && decide (p.lines + 1 = 262)

/-- `run(n)`: n dots, and whether a frame completed in them (R471). `frame` is whether one had completed before. -/
def ppuRun (n : Nat) (frame : Bool) (s : State) : Res Bool :=
  match n with
  | 0 => .ok frame s
  | n + 1 =>
    (dotAt s.ppu.lines s.ppu.dots s).bind fun _ s1 =>
      ppuRun n (frame || s1.ppu.lastDot) (s1.mapPpu Ppu.advance)

end Sys2Proof.Machine
end

