-- ==== Sys2Proof/Machine/CatchUp.lean ====
section
/-! DEFINITION. What a step does around an instruction: the OAM-DMA sequencer (20_memory.md R121), the APU's run with
the DMC's DMA fetch and the samples (47_apu.md R540, R603, R616), the instruction fetch (20_memory.md R103), and the
catch-up of the PPU and the APU (49_system_step.md R670, R672). -/

namespace Sys2Proof.Machine

/-! ## OAM DMA -/

/-- Copy the bytes of a page from index i up into OAM, n of them, in order (R121, R122). DESIGN CHOICE (log entry 17): a
source read that faults records PC, the address of the next instruction, as R701 has F3 do; R701 names no PC for it. -/
def dmaCopy (n i : Nat) (s : State) : Res Unit :=
  match n with
  | 0 => .ok () s
  | n + 1 =>
    (busRead (wordOf (BitVec.ofNat 8 i) s.bus.dmaPage) s).bind fun b s1 =>
      dmaCopy n (i + 1) (s1.mapPpu fun p => { p with oam := Memory.write p.oam i b })

/-- `runDma(parity)`: the stall in cycles, 0 with no DMA pending; Fault(F3) with OAMADDR ≠ 0 (R121). -/
def runDma (s : State) : Res Nat :=
  if s.bus.dmaPending then
    if s.ppu.oamaddr ≠ 0 then .fault (.f3DmaOamAddr s.cpu.pc s)
    else
      (dmaCopy 256 0 s).bind fun _ s1 =>
        .ok (513 + s.emu.totalCycles % 2) (s1.mapBus fun b => { b with dmaPending := false })
  else .ok 0 s

/-! ## The instruction fetch -/

/-- The operand bytes that the fetch reads after an opcode: length − 1 (R174), and none for a faulting row, whose
Fault(F1) comes before any access but the opcode fetch (R677, R701). -/
def fetchedOperands (op : Byte) : Nat :=
  if (decodeOp op 0 0).faults then 0 else (decodeOp op 0 0).length - 1

/-- The instruction at PC: the opcode from PC, operand byte k from PC + k, each a `MemRead` (R103, R160). -/
def fetch (s : State) : Res Instr :=
  (busRead s.cpu.pc s).bind fun op s1 =>
    match fetchedOperands op with
    | 0 => .ok (decodeOp op 0 0) s1
    | 1 => (busRead (s1.cpu.pc + 1) s1).bind fun b1 s2 => .ok (decodeOp op b1 0) s2
    | _ =>
      (busRead (s1.cpu.pc + 1) s1).bind fun b1 s2 =>
        (busRead (s2.cpu.pc + 2) s2).bind fun b2 s3 => .ok (decodeOp op b1 b2) s3

/-! ## The APU's run -/

/-- `DmcFetchCheck()` (R603, R123): with the buffer empty and bytes left, one read through the CpuBus and 4 pending
cycles. -/
def dmcFetchCheck (s : State) : Res Unit :=
  if s.apu.dmc.bufEmpty = true ∧ s.apu.dmc.remaining ≠ 0 then
    (busRead s.apu.dmc.curAddr s).bind fun b s1 =>
      .ok () ((s1.mapApu fun a => { a with dmc := a.dmc.fetched b }).addPending 4)
  else .ok () s

/-- The sample of this APU cycle, when the schedule has one due: `SampleOut(MIX(Outputs()))`, the mixed value handed to
the host; the next one is due 40 or 41 cycles later (R616). No core state changes. -/
def sampleOut (s : State) : State :=
  if s.sampleIn ≤ 1 then
    { s with
      samples := s.samples ++ [Config.mix s.apu.outputs]
      sampleIn := if Config.longGap s.apu.cycle then 41 else 40 }
  else { s with sampleIn := s.sampleIn - 1 }

/-- One CPU cycle of the APU (R540). -/
def apuCycle (s : State) : Res Unit :=
  (dmcFetchCheck (s.mapApu (Apu.tick s.params.fsStepCycles))).bind fun _ s1 => .ok () (sampleOut s1)

/-- `run(c)` (R540). -/
def apuRun (c : Nat) (s : State) : Res Unit :=
  match c with
  | 0 => .ok () s
  | c + 1 => (apuCycle s).bind fun _ s1 => apuRun c s1

/-! ## The catch-up -/

/-- The PC that a fault records, put in place of the one it holds: the PPU and APU run after PC has moved on, and a
fault records the PC of the instruction being executed (R701; DEDUCED, log entry 10). -/
def Fault.withPc (pc : Word) (f : Fault) : Fault :=
  match f with
  | .f1UnimplementedOpcode _ s => .f1UnimplementedOpcode pc s
  | .f2PpuPortRead _ a s => .f2PpuPortRead pc a s
  | .f3DmaOamAddr _ s => .f3DmaOamAddr pc s
  | .f4Sprite8x16 _ a s => .f4Sprite8x16 pc a s
  | .f5Unmapped _ a s => .f5Unmapped pc a s
  | .f6PrgBounds _ a s => .f6PrgBounds pc a s
  | .f7ChrBounds _ a s => .f7ChrBounds pc a s
  | .f8MalformedCartridge => .f8MalformedCartridge
  | .f9UnsupportedCartridge => .f9UnsupportedCartridge

/-- A fault with the state it holds changed. -/
def Fault.mapStopped (g : State → State) (f : Fault) : Fault :=
  match f with
  | .f1UnimplementedOpcode pc s => .f1UnimplementedOpcode pc (g s)
  | .f2PpuPortRead pc a s => .f2PpuPortRead pc a (g s)
  | .f3DmaOamAddr pc s => .f3DmaOamAddr pc (g s)
  | .f4Sprite8x16 pc a s => .f4Sprite8x16 pc a (g s)
  | .f5Unmapped pc a s => .f5Unmapped pc a (g s)
  | .f6PrgBounds pc a s => .f6PrgBounds pc a (g s)
  | .f7ChrBounds pc a s => .f7ChrBounds pc a (g s)
  | .f8MalformedCartridge => .f8MalformedCartridge
  | .f9UnsupportedCartridge => .f9UnsupportedCartridge

/-- An operation whose fault records this PC. -/
def Res.atPc {α : Type} (pc : Word) (r : Res α) : Res α :=
  match r with
  | .ok a s => .ok a s
  | .fault f => .fault (f.withPc pc)

/-- The cycles of a step: the DMA stall, the instruction's, and the pending ones (R670, R672). -/
def stepCycles (dma : Nat) (s : State) : Nat := dma + s.insCycles + s.emu.pendingCycles

/-- The counters once the instruction has run: one more instruction, nothing pending, the step's cycles in the total
(R670, R675); the samples of the step before are gone. -/
def countStep (dma : Nat) (s : State) : State :=
  { s with
    emu := { totalCycles := s.emu.totalCycles + stepCycles dma s, instrCount := s.emu.instrCount + 1,
             pendingCycles := 0 }
    insCycles := 0
    samples := [] }

/-- The rest of a step after the instruction: count its c cycles, `ppu.run(3 * c)`, `apu.run(c)`, and return whether a
frame completed (R670). -/
def catchUp (pc : Word) (dma : Nat) (s : State) : Res Unit :=
  ((ppuRun (3 * stepCycles dma s) false (countStep dma s)).bind fun frame s1 =>
    (apuRun (stepCycles dma s) s1).bind fun _ s2 => .ok () { s2 with frameDone := frame }).atPc pc

end Sys2Proof.Machine
end

