-- ==== Sys2Proof/Machine/Load.lean ====
section
/-! DEFINITION. Placing bytes in the storage that the CPU fetches from, as a program loaded from outside the machine
(log entry 11). -/

namespace Sys2Proof.Machine

/-- Put a byte in the storage behind a CPU address: work RAM, PRG RAM, or PRG ROM at its mirrored offset; an address
with no storage keeps nothing. -/
def storeByte (addr : Word) (b : Byte) (s : State) : State :=
  if addr.toNat < 0x2000 then wramWrite addr b s
  else if addr.toNat < 0x6000 then s
  else if addr.toNat < 0x8000 then s.mapPrgRam fun m => Memory.write m (addr.toNat - 0x6000) b
  else s.mapCart fun c => { c with prg := Memory.write c.prg ((addr.toNat - 0x8000) % c.prgSize) b }

/-- Put bytes at rising addresses, from `addr` up. -/
def storeBytes (addr : Word) (bytes : List Byte) (s : State) : State :=
  match bytes with
  | [] => s
  | b :: bytes => storeBytes (addr + 1) bytes (storeByte addr b s)

/-- The address is fetched from storage: work RAM, PRG RAM where it is present, PRG ROM. -/
def storageAddr (s : State) (addr : Word) : Bool :=
  decide (addr.toNat < 0x2000) || (decide (0x6000 ≤ addr.toNat) && decide (addr.toNat < 0x8000) && s.params.prgRamPresent)
    || decide (0x8000 ≤ addr.toNat)

/-- The state with a PC from which three bytes are fetched from storage: the same PC where it is one, else 0x0200, and
then with no OAM DMA pending, which runs before the fetch. -/
def fetchable (s : State) : State :=
  let s1 := s.mapBus fun b => { b with dmaPending := false }
  if storageAddr s s.cpu.pc && storageAddr s (s.cpu.pc + 1) && storageAddr s (s.cpu.pc + 2) then s1
  else s1.mapCpu fun c => { c with pc := 0x0200 }

/-- Put bytes at PC. -/
def storeProgram (bytes : List Byte) (s : State) : State := storeBytes s.cpu.pc bytes s

end Sys2Proof.Machine
end

