-- ==== Sys2Proof/Machine/Step.lean ====
section
/-! DEFINITION. One step: `step()` of 49_system_step.md R670, and the placing of an instruction where it is fetched. -/

namespace Sys2Proof.Machine

/-- `step()` (R670): the pending OAM DMA, one instruction, then the PPU and the APU caught up. -/
def step (s : State) : Host.Outcome State Fault Refusal :=
  match runDma s with
  | .fault f => .fault f
  | .ok dma s1 =>
    match fetch s1 with
    | .fault f => .fault f
    | .ok i s2 =>
      match exec i s2 with
      | .fault f => .fault f
      | .refused r => .refused r
      | .next s3 => (catchUp s1.cpu.pc dma s3).outcome

/-- `s` with an instruction, given by its opcode-table word, stored where `step` fetches next (log entry 11). -/
def State.withFetchWord (s : State) (nbits w : Nat) : State :=
  storeProgram (tableBytes nbits w) (fetchable s)

end Sys2Proof.Machine
end

