-- ==== Sys2Proof/Machine/PowerOn.lean ====
section
/-! DEFINITION. How the machine starts (49_system_step.md R687): the cassette built from an iNES buffer
(48_controllers_cassette.md R640), the power-on values over a launch record (10_state.md R90, R91), and the power-on
RESET entry (70_reset_and_hazards.md R750). -/

namespace Sys2Proof.Machine

/-! ## The cassette -/

/-- A store with these bytes from index `k` up, in canonical form. -/
def Memory.ofBytes (k : Nat) (bytes : List Byte) : Memory :=
  match bytes with
  | [] => []
  | b :: bytes => if b = Memory.unlisted then Memory.ofBytes (k + 1) bytes else (k, b) :: Memory.ofBytes (k + 1) bytes

/-- The magic `NES` and 0x1A of an iNES header (R640). -/
def inesMagic : List Byte := [0x4E, 0x45, 0x53, 0x1A]

/-- Byte k of a buffer; read only where the buffer has one. -/
def bufferByte (buffer : List Byte) (k : Nat) : Byte := buffer.getD k 0

/-- `buffer[first .. first + n - 1]`. -/
def bufferSlice (buffer : List Byte) (first n : Nat) : List Byte := (buffer.drop first).take n

/-- The mapper number of the header: `(f7 & 0xF0) | (f6 >> 4)` (R640). -/
def headerMapper (f6 f7 : Byte) : Byte := (f7 &&& 0xF0) ||| (f6 >>> 4)

/-- `need`: the bytes that a header with these bank counts calls for (R640). -/
def imageSize (prgBanks chrBanks : Nat) : Nat := 16 + 16384 * prgBanks + 8192 * chrBanks

/-- The cassette call of the host with an iNES buffer: the cassette, or Fault(F8) or Fault(F9), in the order of R640. -/
def Cart.ofImage (buffer : List Byte) : Except Fault Cart :=
  let prgBanks := (bufferByte buffer 4).toNat
  let chrBanks := (bufferByte buffer 5).toNat
  let f6 := bufferByte buffer 6
  let f7 := bufferByte buffer 7
  if buffer.length < 16 ∨ buffer.take 4 ≠ inesMagic then .error .f8MalformedCartridge
  else if prgBanks = 0 then .error .f8MalformedCartridge
  else if f6.getLsbD 2 then .error .f9UnsupportedCartridge
  else if f6.getLsbD 3 then .error .f9UnsupportedCartridge
  else if headerMapper f6 f7 ≠ 0 then .error .f9UnsupportedCartridge
  else if buffer.length < imageSize prgBanks chrBanks then .error .f8MalformedCartridge
  else
    .ok
      { prg := Memory.ofBytes 0 (bufferSlice buffer 16 (16384 * prgBanks))
        prgBanks := prgBanks
        chr := Memory.ofBytes 0 (bufferSlice buffer (16 + 16384 * prgBanks) (8192 * chrBanks))
        chrBanks := chrBanks
        mirroring := if f6.getLsbD 0 then .vertical else .horizontal }

/-! ## Power-on -/

/-- The launch record `INIT` (R90): the power-on value of every item that R91 marks "launch". -/
structure Launch where
  a : Byte
  x : Byte
  y : Byte
  sp : Byte
  pc : Word
  n : Bool
  v : Bool
  d : Bool
  i : Bool
  z : Bool
  c : Bool
  wram : Memory
  prgRam : Memory
  color : Cells (BitVec 6)
  bgt : Cells Bool
  oam : Memory
  nt : Memory
  pal : Cells (BitVec 6)
  deriving DecidableEq, Repr

/-- The launch record whose every value is 0 (DESIGN CHOICE, log entry 1): the one `State.reset` starts from. -/
def Launch.zero : Launch :=
  { a := 0, x := 0, y := 0, sp := 0, pc := 0, n := false, v := false, d := false, i := false, z := false, c := false,
    wram := [], prgRam := [], color := [], bgt := [], oam := [], nt := [], pal := [] }

/-- The machine at power-on, before the RESET entry (R91). -/
def powerOn (p : Params) (l : Launch) (c : Cart) : State :=
  { cpu := { a := l.a, x := l.x, y := l.y, sp := l.sp, pc := l.pc, n := l.n, v := l.v, d := l.d, i := l.i, z := l.z,
             c := l.c, inNmi := false }
    emu := { totalCycles := 0, instrCount := 0, pendingCycles := 0 }
    wram := l.wram
    prgRam := l.prgRam
    bus := { dmaPending := false, dmaPage := 0 }
    ppu := { ctrl := 0, mask := 0, vblank := false, s0hit := false, oamaddr := 0, v := 0, t := 0, x := 0, w := false,
             rdbuf := 0, lines := 0, dots := 0, fx := 0, color := l.color, bgt := l.bgt, oam := l.oam, nt := l.nt,
             pal := l.pal }
    apu := Apu.powerOn
    ctl := Ctl.powerOn
    cart := c
    params := p
    draws := 0
    insCycles := 0
    frameDone := false
    sampleIn := 40
    samples := [] }

/-- The power-on RESET: `interrupt(RESET)` with the launch PC as return address (R750). -/
def resetEntry (s : State) : State := interrupt .reset s.cpu.pc s

/-- The first state: power-on, then the RESET entry (R687). -/
def start (p : Params) (l : Launch) (c : Cart) : State := resetEntry (powerOn p l c)

/-- The host call that starts the machine, `initialize(buffer)` (R681, R687): the first state with the cassette built from
the buffer, or the Fault(F8) or Fault(F9) of R640, raised before there is a state (R701). The open parameters and the
launch record are arguments, as R9 and R90 leave them open. -/
def initializeFrom (p : Params) (l : Launch) (buffer : List Byte) : Except Fault State :=
  match Cart.ofImage buffer with
  | .ok c => .ok (start p l c)
  | .error f => .error f

end Sys2Proof.Machine
end

