-- ==== Sys2Proof/Machine/HostCalls.lean ====
section
/-! DEFINITION. What the host can do between steps (49_system_step.md R680 to R684): the debug snapshot, the buttons,
the picture, and stepping a whole frame. The call that starts the machine is `initializeFrom` of PowerOn.lean. -/

namespace Sys2Proof.Machine

/-- What `getEmuInfo` returns (R682). -/
structure EmuInfo where
  a : Byte
  x : Byte
  y : Byte
  sp : Byte
  pc : Word
  status : Byte
  lines : Nat
  dots : Nat
  totalCycles : Nat
  instrCount : Nat
  deriving DecidableEq, Repr

/-- `getEmuInfo`: the snapshot, with no side effect; the status byte has bit 5 set and bit 4 clear (R682). -/
def getEmuInfo (s : State) : EmuInfo :=
  { a := s.cpu.a, x := s.cpu.x, y := s.cpu.y, sp := s.cpu.sp, pc := s.cpu.pc, status := s.cpu.p, lines := s.ppu.lines,
    dots := s.ppu.dots, totalCycles := s.emu.totalCycles, instrCount := s.emu.instrCount }

/-- Bit k of a byte set to v. -/
def setBit (b : Byte) (k : Fin 8) (v : Bool) : Byte :=
  if v then b ||| (1#8 <<< k.val) else b &&& ~~~(1#8 <<< k.val)

/-- One controller's button b pressed (v true) or released (R683). -/
def Pad.setButton (b : Fin 8) (v : Bool) (p : Pad) : Pad := { p with buttons := setBit p.buttons b v }

/-- `ctl.buttons[c][b] <- v`; nothing else changes (R683). -/
def setButton (c : Fin 2) (b : Fin 8) (v : Bool) (s : State) : State :=
  s.mapCtl fun t =>
    if c = 0 then { t with pad0 := t.pad0.setButton b v } else { t with pad1 := t.pad1.setButton b v }

/-- `pushButton(c, b)` (R683). -/
def pushButton (c : Fin 2) (b : Fin 8) (s : State) : State := setButton c b true s

/-- `releaseButton(c, b)` (R683). -/
def releaseButton (c : Fin 2) (b : Fin 8) (s : State) : State := setButton c b false s

/-- `getPictureColor`: 240 rows of 256 pixels, each the RGB value of its colour index (R684). -/
def getPictureColor (s : State) : List (List Rgb) :=
  (List.range 240).map fun l => (List.range 256).map fun d => Config.rgbPalette (s.ppu.colorAt l d)

/-- The state with samples that were handed out earlier in the same host call put before its own (R616). -/
def State.afterSamples (l : List Sample) (s : State) : State := s.setSamples (l ++ s.samples)

/-- The outcome of the rest of a host call, after samples that the call has handed out already. -/
def afterSamples (l : List Sample) (o : Host.Outcome State Fault Refusal) : Host.Outcome State Fault Refusal :=
  match o with
  | .next t => .next (t.afterSamples l)
  | .fault f => .fault (f.mapStopped (State.afterSamples l))
  | .refused r => .refused r

/-- `stepFrame()`: steps until one completes a frame (R674), at most `fuel` of them; none where no frame has completed
by then. The samples of the outcome's state are all those that its steps hand to the callback, oldest first, the ones of
a step that faults among them (R681): each step begins with none. -/
def stepFrame (fuel : Nat) (s : State) : Option (Host.Outcome State Fault Refusal) :=
  match fuel with
  | 0 => none
  | fuel + 1 =>
    match step (s.setSamples []) with
    | .next t => if t.frameDone then some (.next t) else (stepFrame fuel t).map (afterSamples t.samples)
    | .fault f => some (.fault f)
    | .refused r => some (.refused r)

end Sys2Proof.Machine
end

