-- ==== Sys2Proof/Safety.lean ====
section
/-! DEFINITION. The terms claims are stated in: which accesses complete, the storage behind a CPU address, a byte of it
read with no side effect, when an instruction's operand can be read, the invariant of 10_state.md R92, the shapes of the
instruction rules, and what a safe run is. -/

namespace Sys2Proof.Machine

/-! ## Which accesses complete -/

/-- The PPUDATA address names a byte: it is past the CHR range or below the CHR size (20_memory.md R112). -/
def dataReachable (s : State) : Bool := decide (0x2000 ≤ s.ppu.dataAddr) || decide (s.ppu.dataAddr < s.cart.chrSize)

/-- A read of the CPU address completes (R104, R107, R109, R110; 45_ppu_registers.md R420). -/
def readable (s : State) (addr : Word) : Bool :=
  if addr.toNat < 0x2000 then true
  else if addr.toNat < 0x4000 then
    addr.toNat % 8 == 2 || addr.toNat % 8 == 4 || (addr.toNat % 8 == 7 && dataReachable s)
  else if addr.toNat < 0x4020 then true
  else if addr.toNat < 0x6000 then false
  else if addr.toNat < 0x8000 then s.params.prgRamPresent
  else true

/-- A write of d to the CPU address completes (R104, R107, R108, R110; 45_ppu_registers.md R420, R422). -/
def writable (s : State) (addr : Word) (d : Byte) : Bool :=
  if addr.toNat < 0x2000 then true
  else if addr.toNat < 0x4000 then
    if addr.toNat % 8 = 0 then !d.getLsbD 5 else if addr.toNat % 8 = 7 then dataReachable s else true
  else if addr.toNat < 0x4020 then true
  else if addr.toNat < 0x6000 then false
  else if addr.toNat < 0x8000 then s.params.prgRamPresent
  else decide (addr.toNat - 0x8000 < s.cart.prgSize)

/-- The value of the operand can be read: nothing to read, or an effective address whose read completes
(40_addressing_modes.md R214, R218). -/
def operandReadable (o : ValueOperand) (s : State) : Bool :=
  match o with
  | .acc => true
  | .imm _ => true
  | .mem m =>
    match fetchAddress m s with
    | .ok e s1 => readable s1 e.1
    | .fault _ => false

/-- Both bytes of a jump pointer can be read, the second in the state after the first (R212). -/
def pointerReadable (p : Word) (s : State) : Bool :=
  match busRead p s with
  | .ok _ s1 => readable s1 (pointerHighAddr p)
  | .fault _ => false

/-- n bytes at rising CPU addresses, each a `MemRead` (20_memory.md R103). -/
def readBytes (n : Nat) (addr : Word) (s : State) : Res (List Byte) :=
  match n with
  | 0 => .ok [] s
  | n + 1 =>
    (busRead addr s).bind fun b s1 => (readBytes n (addr + 1) s1).bind fun l s2 => .ok (b :: l) s2

/-! ## Storage -/

/-- One byte of the storage that CPU addresses name (R104, R105, R107, R110). -/
inductive StoreCell
  | wram (i : Nat)
  | prgRam (i : Nat)
  | prg (i : Nat)
  deriving DecidableEq, Repr

/-- The storage byte that a CPU address names; none for a port, an I/O register or an unmapped address. Mirrors of one
byte have one cell. -/
def cellOf (s : State) (addr : Word) : Option StoreCell :=
  if addr.toNat < 0x2000 then some (.wram (wramIndex addr))
  else if addr.toNat < 0x6000 then none
  else if addr.toNat < 0x8000 then
    if s.params.prgRamPresent then some (.prgRam (addr.toNat - 0x6000)) else none
  else some (.prg ((addr.toNat - 0x8000) % s.cart.prgSize))

/-- The byte a storage cell holds. -/
def cellByte (s : State) (c : StoreCell) : Byte :=
  match c with
  | .wram i => Memory.read s.wram i
  | .prgRam i => Memory.read s.prgRam i
  | .prg i => Memory.read s.cart.prg i

/-- The byte stored at a CPU address, read with no side effect. -/
def storedByte (s : State) (addr : Word) : Option Byte := (cellOf s addr).map (cellByte s)

/-- Every byte of the PPU space and of OAM is the same in the two states (20_memory.md R100). -/
def SamePpuMemory (s t : State) : Prop :=
  (∀ a, a < 0x4000 → ppuPeek t a = ppuPeek s a) ∧ ∀ i, Memory.read t.ppu.oam i = Memory.read s.ppu.oam i

/-! ## The invariant -/

/-- Every index of the store is below n. -/
def Cells.below {α : Type} (n : Nat) (m : Cells α) : Bool := m.all fun e => decide (e.1 < n)

/-- A store in canonical form whose indices are all below n. -/
def Cells.Sized {α : Type} [DecidableEq α] (d : α) (n : Nat) (m : Cells α) : Prop :=
  Cells.wf d m = true ∧ Cells.below n m = true

/-- The PPU's part of the invariant: the counters in range and PPUCTRL bit 5 clear (R92); every store canonical and
within its size (R53, R54, R56). -/
structure Ppu.Inv (p : Ppu) : Prop where
  lines : p.lines ≤ 261
  dots : p.dots ≤ 340
  ctrl5 : p.ctrl.getLsbD 5 = false
  color : Cells.Sized 0 61440 p.color
  bgt : Cells.Sized true 61440 p.bgt
  oam : Cells.Sized Memory.unlisted 256 p.oam
  nt : Cells.Sized Memory.unlisted 4096 p.nt
  pal : Cells.Sized 0 32 p.pal

/-- The APU's part: DMC bits left 1 to 8 (R92); the sequencer's step within its mode (R61, 47_apu.md R560); the noise
shift register never 0 (R558). -/
structure Apu.Inv (a : Apu) : Prop where
  bitsLeftLow : 1 ≤ a.dmc.bitsLeft.toNat
  bitsLeftHigh : a.dmc.bitsLeft.toNat ≤ 8
  step : a.fs.step < if a.fs.mode then 5 else 4
  shift : a.noise.shift ≠ 0

/-- The cassette's part: at least one PRG bank, and both arrays canonical and within their sizes (R64, R640). -/
structure Cart.Inv (c : Cart) : Prop where
  banks : 0 < c.prgBanks
  prg : Cells.Sized Memory.unlisted c.prgSize c.prg
  chr : Cells.Sized Memory.unlisted c.chrSize c.chr

/-- The invariant of R92 between two steps, with the canonical form of every store (the palette entries, v, t and the
DMC level are in range by their types), the two cycle counts equal (47_apu.md R541), and the model's own fields at
rest (log entries 5 and 8). -/
structure State.Inv (s : State) : Prop where
  ppu : s.ppu.Inv
  apu : s.apu.Inv
  cart : s.cart.Inv
  wram : Cells.Sized Memory.unlisted 2048 s.wram
  prgRam : Cells.Sized Memory.unlisted 8192 s.prgRam
  index0 : s.ctl.pad0.index ≤ 8
  index1 : s.ctl.pad1.index ≤ 8
  cycles : s.apu.cycle = s.emu.totalCycles
  insCycles : s.insCycles = 0
  sampleLow : 1 ≤ s.sampleIn
  sampleHigh : s.sampleIn ≤ 41

/-- The addressing mode of which an operand is a form (30_encoding.md R161). -/
def operandMode (o : Operand) : Mode :=
  match o with
  | .imp => .imp
  | .value .acc => .acc
  | .value (.imm _) => .imm
  | .value (.mem (.zp _)) => .zp
  | .value (.mem (.zpx _)) => .zpx
  | .value (.mem (.zpy _)) => .zpy
  | .value (.mem (.abs _)) => .abs
  | .value (.mem (.abx _)) => .abx
  | .value (.mem (.aby _)) => .aby
  | .value (.mem (.izx _)) => .izx
  | .value (.mem (.izy _)) => .izy
  | .rel _ => .rel
  | .ind _ => .ind

/-! ## The shapes of the instruction rules (41_load_store_transfer.md to 44_unofficial.md)

Each shape says of a mnemonic: its opcodes and modes; for every state, the whole next state where the accesses complete;
and that the instruction stops with the access's fault where one does not. -/

/-- A rule `(v, cross) <- FetchValue(mode); …` that works on the registers. -/
def ReadRule (m : Mnemonic) (rows : List (Byte × Mode)) (after : Byte → Cpu → Cpu) : Prop :=
  ∀ i : Instr, (i.mnemonic = m ↔ (i.row.opcode, i.row.mode) ∈ rows) ∧
    (i.mnemonic = m → ∃ o, i.operand = .value o ∧ ∀ s : State,
      (operandReadable o s = true → ∃ r s1, fetchValue o s = .ok r s1 ∧
        exec i s = .next { s1 with
          cpu := { after r.value s.cpu with pc := s.cpu.pc + BitVec.ofNat 16 i.length }
          insCycles := i.row.baseCycles + if i.row.pageCross && r.cross then 1 else 0 }) ∧
      (operandReadable o s = false → ∃ f, fetchValue o s = .fault f ∧ exec i s = .fault f))

/-- A rule with no operand, on the registers alone. -/
def ImpliedRule (m : Mnemonic) (opcode : Byte) (cycles : Nat) (after : Cpu → Cpu) : Prop :=
  ∀ i : Instr, (i.mnemonic = m ↔ (i.row.opcode, i.row.mode) = (opcode, .imp)) ∧
    (i.mnemonic = m → ∀ s : State,
      exec i s = .next { s with cpu := { after s.cpu with pc := s.cpu.pc + 1 }, insCycles := cycles })

/-- A rule `(ea, cross) <- FetchAddress(mode); MemWrite(ea, 1, value)`: no flag, never the page-cross cycle. -/
def StoreRule (m : Mnemonic) (rows : List (Byte × Mode)) (value : Cpu → Byte) : Prop :=
  ∀ i : Instr, (i.mnemonic = m ↔ (i.row.opcode, i.row.mode) ∈ rows) ∧
    (i.mnemonic = m → ∃ o, i.operand = .value (.mem o) ∧ ∀ s : State, ∃ e, fetchAddress o s = .ok e s ∧
      (writable s e.1 (value s.cpu) = true → ∃ s1, busWrite e.1 (value s.cpu) s = .ok () s1 ∧
        exec i s = .next { s1 with
          cpu := { s.cpu with pc := s.cpu.pc + BitVec.ofNat 16 i.length }
          insCycles := i.row.baseCycles }) ∧
      (writable s e.1 (value s.cpu) = false → ∃ f, busWrite e.1 (value s.cpu) s = .fault f ∧ exec i s = .fault f))

/-- A read-modify-write rule: `(v, cross) <- FetchValue(mode)`, the registers changed by `before v`,
`WriteBack(mode, r)` with `r = result v` and the registers read before any was written, then `after r`. One read and
one write of one address; never the page-cross cycle. -/
def ModifyRule (m : Mnemonic) (rows : List (Byte × Mode)) (result : Byte → Cpu → Byte) (before after : Byte → Cpu → Cpu) :
    Prop :=
  ∀ i : Instr, (i.mnemonic = m ↔ (i.row.opcode, i.row.mode) ∈ rows) ∧
    (i.mnemonic = m → ∃ o, i.operand = .value o ∧ ∀ s : State,
      match o with
      | .imm _ => False
      | .acc =>
        exec i s = .next { s with
          cpu := { after (result s.cpu.a s.cpu) { before s.cpu.a s.cpu with a := result s.cpu.a s.cpu } with
            pc := s.cpu.pc + BitVec.ofNat 16 i.length }
          insCycles := i.row.baseCycles }
      | .mem mo => ∃ e, fetchAddress mo s = .ok e s ∧
        (readable s e.1 = false → ∃ f, busRead e.1 s = .fault f ∧ exec i s = .fault f) ∧
        (readable s e.1 = true → ∃ v s1, busRead e.1 s = .ok v s1 ∧
          (writable s1 e.1 (result v s.cpu) = true → ∃ s2, busWrite e.1 (result v s.cpu) s1 = .ok () s2 ∧
            exec i s = .next { s2 with
              cpu := { after (result v s.cpu) (before v s.cpu) with pc := s.cpu.pc + BitVec.ofNat 16 i.length }
              insCycles := i.row.baseCycles }) ∧
          (writable s1 e.1 (result v s.cpu) = false →
            ∃ f, busWrite e.1 (result v s.cpu) { s1 with cpu := before v s.cpu } = .fault f ∧ exec i s = .fault f)))

/-- A rule `Branch(cond)` (43_control_flow.md R330); the displacement is the operand byte, sign-extended. -/
def BranchRule (m : Mnemonic) (opcode : Byte) (cond : Cpu → Bool) : Prop :=
  ∀ i : Instr, (i.mnemonic = m ↔ (i.row.opcode, i.row.mode) = (opcode, .rel)) ∧
    (i.mnemonic = m → ∃ d, i.operand = .rel d ∧
      (i.WellFormed → ∃ b : Byte, encode i = [opcode, b] ∧ BitVec.ofInt 16 d = b.signExtend 16) ∧
      ∀ s : State,
        (cond s.cpu = false →
          exec i s = .next { s with cpu := { s.cpu with pc := s.cpu.pc + 2 }, insCycles := 2 }) ∧
        (cond s.cpu = true →
          exec i s = .next { s with
            cpu := { s.cpu with pc := s.cpu.pc + 2 + BitVec.ofInt 16 d }
            insCycles := 2 + 1 +
              if (s.cpu.pc + 2) &&& 0xFF00 ≠ (s.cpu.pc + 2 + BitVec.ofInt 16 d) &&& 0xFF00 then 1 else 0 }))

/-- A rule `raise Fault(F1)`: no state change, PC not advanced. Each row is given with its base cycles and whether it has
the page-cross cycle. -/
def FaultRule (m : Mnemonic) (rows : List (Byte × Mode × Nat × Bool)) : Prop :=
  ∀ i : Instr, (i.mnemonic = m ↔ (i.row.opcode, i.row.mode, i.row.baseCycles, i.row.pageCross) ∈ rows) ∧
    (i.mnemonic = m → ∀ s : State, exec i s = .fault (.f1UnimplementedOpcode s.cpu.pc s))

/-- `SetNZ(v)` as 41_load_store_transfer.md R252 writes it. -/
def ruleNZ (v : Byte) (c : Cpu) : Cpu := { c with n := v.getLsbD 7, z := v == 0 }

/-- `AddCore(m)` as 42_arithmetic_logic.md R270 writes it. -/
def ruleAddCore (m : Byte) (c : Cpu) : Cpu :=
  let sum := c.a.toNat + m.toNat + c.c.toNat
  let r := BitVec.ofNat 8 sum
  { c with
    c := decide (sum > 0xFF)
    v := (~~~(c.a ^^^ m) &&& (c.a ^^^ r) &&& 0x80) != 0
    a := r
    n := r.getLsbD 7
    z := r == 0 }

/-- `Compare(r, v)` as 42_arithmetic_logic.md R280 writes it. -/
def ruleCompare (r v : Byte) (c : Cpu) : Cpu :=
  { c with c := decide (r.toNat ≥ v.toNat), n := (r - v).getLsbD 7, z := (r - v) == 0 }

/-! ## Which instructions store -/

/-- The instruction stores nothing: every mnemonic but the stores, the read-modify-write ones with a memory operand,
and those that push. -/
def storesNothing (i : Instr) : Bool :=
  match i.mnemonic with
  | .sta | .stx | .sty | .sax | .inc | .dec | .slo | .rla | .sre | .rra | .dcp | .isc | .pha | .php | .jsr | .brk => false
  | .asl | .lsr | .rol | .ror => i.operand == .value .acc
  | _ => true

/-- The instruction stores one byte at its effective address without reading it: STA, STX, STY, SAX. -/
def storesValue (i : Instr) : Bool :=
  match i.mnemonic with
  | .sta | .stx | .sty | .sax => true
  | _ => false

/-- The instruction reads one byte of memory and stores one at the same address. -/
def modifiesMemory (i : Instr) : Bool :=
  match i.mnemonic with
  | .inc | .dec | .slo | .rla | .sre | .rra | .dcp | .isc => true
  | .asl | .lsr | .rol | .ror => i.operand != .value .acc
  | _ => false

/-- How many bytes the instruction pushes in this state. -/
def pushCount (i : Instr) (s : State) : Nat :=
  match i.mnemonic with
  | .pha | .php => 1
  | .jsr => 2
  | .brk => if s.cpu.i || s.cpu.inNmi then 0 else 3
  | _ => 0

/-- One byte of the storage that PPU addresses name (20_memory.md R111 to R114). -/
inductive PpuCell
  | chr (i : Nat)
  | nt (i : Nat)
  | pal (i : Nat)
  deriving DecidableEq, Repr

/-- The byte that a PPU address names; mirrors of one byte have one cell. -/
def ppuCellOf (s : State) (a : Nat) : PpuCell :=
  if a < 0x2000 then .chr a else if a < 0x3F00 then .nt (ntIndex s.cart.mirroring a) else .pal (palIndex a)

/-- The dots from the start of the frame to the PPU's position (46_ppu_rendering.md R470). -/
def Ppu.position (p : Ppu) : Nat := 341 * p.lines + p.dots

/-- The colour that sprite i shows at a pixel, none where it shows nothing there (46_ppu_rendering.md R496): the pixel lies
in the sprite's box and is not clipped, its pattern value is not 0, and the sprite is in front or the background there is
transparent. -/
def spriteColor (s : State) (l x i : Nat) : Option (BitVec 6) :=
  let p := s.ppu
  let y := (Memory.read p.oam (4 * i)).toNat
  let n := (Memory.read p.oam (4 * i + 1)).toNat
  let attr := Memory.read p.oam (4 * i + 2)
  let sx := (Memory.read p.oam (4 * i + 3)).toNat
  let row := if attr.getLsbD 7 then 7 - (l - (y + 1)) else l - (y + 1)
  let bit := if attr.getLsbD 6 then x - sx else 7 - (x - sx)
  let base := (if p.ctrl.getLsbD 3 then 0x1000 else 0) + 16 * n + row
  if y + 1 ≤ l ∧ l ≤ y + 8 ∧ sx ≤ x ∧ x ≤ sx + 7 ∧ (p.mask.getLsbD 2 = true ∨ 8 ≤ x) ∧
      (attr.getLsbD 5 = false ∨ p.transparent l x = true) then
    match ppuPeek s base, ppuPeek s (base + 8) with
    | some lo, some hi =>
      let c := 2 * (hi.getLsbD bit).toNat + (lo.getLsbD bit).toNat
      if c = 0 then none else some (p.palRead (0x3F10 + 4 * (attr.toNat % 4) + c))
    | _, _ => none
  else none

/-- The sprites in the order in which they win a pixel: the one visited last wins (46_ppu_rendering.md R498). -/
def spritesByPriority (o : SpriteOrder) : List Nat :=
  match o with
  | .ascending => (List.range 64).reverse
  | .descending => List.range 64

/-! ## Safe runs -/

/-- k steps from s all complete: no fault and no refusal (49_system_step.md R688). -/
def SafeFor (k : Nat) (s : State) : Prop :=
  match k with
  | 0 => True
  | k + 1 => ∃ t, step s = .next t ∧ SafeFor k t

end Sys2Proof.Machine
end

