-- ==== Sys2Proof/Certificates/Slice0/Obligations.lean ====
section
/-! DEFINITION. The statements about the model that the provers settle, in the order of OBLIGATIONS.json. -/

open Sys2Proof Sys2Proof.Machine

/-! ## Decoding and the step -/

/-- O1. A step runs the decoded instruction (49_system_step.md R670, R677): with the DMA of the step done (state s1), when
the instruction's bytes are read at PC (state s2) and decode to an executable i, or the opcode there is a faulting one,
the step is `exec i` followed by the catch-up of the PPU and the APU. -/
def Obligations.StepRunsTheDecodedInstruction : Prop :=
  (∀ (s s1 s2 : State) (dma : Nat) (i : Instr) (bytes : List Byte),
    runDma s = .ok dma s1 → readBytes i.length s1.cpu.pc s1 = .ok bytes s2 → decode bytes = .ok (i, []) →
    i.faults = false →
    step s = match exec i s2 with
      | .next t => (catchUp s1.cpu.pc dma t).outcome
      | .fault f => .fault f
      | .refused r => .refused r) ∧
  (∀ (s s1 s2 : State) (dma : Nat) (i : Instr) (op b1 b2 : Byte),
    runDma s = .ok dma s1 → busRead s1.cpu.pc s1 = .ok op s2 → decode [op, b1, b2] = .ok (i, [op, b1, b2].drop i.length) →
    i.faults = true → step s = .fault (.f1UnimplementedOpcode s2.cpu.pc s2))

/-- O2. Words of the opcode table decode to the instructions they stand for (30_encoding.md R160 to R172), one or more for
each family. -/
def Obligations.OpcodeTableWordsDecode : Prop :=
  decodeTableWord 16 0x80A9 = some (.ldaImm 0x80) ∧ decodeTableWord 24 0x12348D = some (.staAbs 0x1234) ∧
  decodeTableWord 8 0xAA = some .tax ∧ decodeTableWord 8 0x48 = some .pha ∧
  decodeTableWord 16 0x1071 = some (.adcIzy 0x10) ∧ decodeTableWord 24 0xFF001E = some (.aslAbx 0xFF00) ∧
  decodeTableWord 8 0x0A = some .aslAcc ∧ decodeTableWord 16 0xFED0 = some (.bne (-2)) ∧
  decodeTableWord 16 0x7F90 = some (.bcc 127) ∧ decodeTableWord 24 0x02FF6C = some (.jmpInd 0x02FF) ∧
  decodeTableWord 24 0x900020 = some (.jsr 0x9000) ∧ decodeTableWord 8 0x00 = some .brk ∧
  decodeTableWord 8 0x40 = some .rti ∧ decodeTableWord 8 0x38 = some .sec ∧ decodeTableWord 8 0xEA = some .nop ∧
  decodeTableWord 16 0x44C3 = some (.dcpIzx 0x44) ∧ decodeTableWord 16 0x4497 = some (.saxZpy 0x44) ∧
  decodeTableWord 16 0x08CB = some (.axsImm 0x08) ∧ decodeTableWord 24 0x20021C = some (.nop1C 0x2002) ∧
  decodeTableWord 8 0x02 = some .jam02 ∧ decodeTableWord 24 0x12349F = some (.ahxAby 0x1234)

/-- O3. Decoding the encoding of a well-formed instruction gives it back, with the bytes after it left over
(30_encoding.md R160 to R167, R175). -/
def Obligations.DecodeOfEncode : Prop :=
  ∀ (i : Instr) (rest : List Byte), i.WellFormed → decode (encode i ++ rest) = .ok (i, rest)

/-- O4. Whatever bytes decode, they are the encoding of a well-formed instruction and the rest; and the decoder rejects only
bytes that end too early (30_encoding.md R167, R174). -/
def Obligations.EncodeOfDecode : Prop :=
  (∀ (bytes rest : List Byte) (i : Instr), decode bytes = .ok (i, rest) → i.WellFormed ∧ bytes = encode i ++ rest) ∧
  (∀ (op b1 b2 : Byte) (rest : List Byte), ∃ i rest', decode (op :: b1 :: b2 :: rest) = .ok (i, rest')) ∧
  (∀ (bytes : List Byte) (e : DecodeError), decode bytes = .error e →
    bytes = [] ∨ ∃ op rest, bytes = op :: rest ∧ bytes.length < (decodeOp op 0 0).length)

/-- O5. What the opcode map's columns keep (30_encoding.md R161, R168, R170, R172; 40_addressing_modes.md R213;
70_reset_and_hazards.md R770): the operand in the form of the row's mode, lengths 1 to 3, at least two base cycles, the
page-cross cycle only in ABX, ABY and IZY rows of reading mnemonics, the faulting mnemonics, and the base cycles of the
reading, storing, modifying, branching and register rows by mode (O19, O24 to O27 and O30 give the other rows'). -/
def Obligations.OpcodeMapColumns : Prop :=
  ∀ i : Instr, operandMode i.operand = i.row.mode ∧
    (i.length = 1 ∨ i.length = 2 ∨ i.length = 3) ∧ (encode i).length = i.length ∧ 2 ≤ i.row.baseCycles ∧
    (i.faults = false → (i.row.pageCross = true ↔
      i.row.mode ∈ [.abx, .aby, .izy] ∧ i.mnemonic ∈ [.lda, .ldx, .ldy, .adc, .sbc, .and, .ora, .eor, .cmp, .lax, .nop])) ∧
    (i.faults = true ↔ i.mnemonic ∈ [.jam, .xaa, .ahx, .tas, .shy, .shx, .lxa, .las]) ∧
    (i.mnemonic ∈ [.lda, .ldx, .ldy, .lax, .and, .ora, .eor, .bit, .adc, .sbc, .cmp, .cpx, .cpy, .anc, .alr, .arr, .axs, .nop] →
      (i.row.mode, i.row.baseCycles) ∈ [(.imp, 2), (.imm, 2), (.zp, 3), (.zpx, 4), (.zpy, 4), (.abs, 4), (.abx, 4), (.aby, 4),
        (.izx, 6), (.izy, 5)]) ∧
    (i.mnemonic ∈ [.sta, .stx, .sty, .sax] →
      (i.row.mode, i.row.baseCycles) ∈ [(.zp, 3), (.zpx, 4), (.zpy, 4), (.abs, 4), (.abx, 5), (.aby, 5), (.izx, 6), (.izy, 6)]) ∧
    (i.mnemonic ∈ [.asl, .lsr, .rol, .ror, .inc, .dec, .slo, .rla, .sre, .rra, .dcp, .isc] →
      (i.row.mode, i.row.baseCycles) ∈ [(.acc, 2), (.zp, 5), (.zpx, 6), (.abs, 6), (.abx, 7), (.aby, 7), (.izx, 8), (.izy, 8)]) ∧
    (i.mnemonic ∈ [.bcc, .bcs, .beq, .bne, .bmi, .bpl, .bvc, .bvs] → (i.row.mode, i.row.baseCycles) = (.rel, 2)) ∧
    (i.mnemonic ∈ [.tax, .tay, .txa, .tya, .tsx, .txs, .inx, .iny, .dex, .dey, .clc, .sec, .cli, .sei, .cld, .sed, .clv] →
      (i.row.mode, i.row.baseCycles) = (.imp, 2))

/-! ## Operands and the CPU bus -/

/-- O6. The effective address and page-cross flag of every memory mode; forming one changes nothing
(40_addressing_modes.md R204 to R210). -/
def Obligations.EffectiveAddresses : Prop :=
  ∀ (s : State) (z : Byte) (a : Word),
    fetchAddress (.zp z) s = .ok (z.setWidth 16, false) s ∧
    fetchAddress (.zpx z) s = .ok ((z + s.cpu.x).setWidth 16, false) s ∧
    fetchAddress (.zpy z) s = .ok ((z + s.cpu.y).setWidth 16, false) s ∧
    fetchAddress (.abs a) s = .ok (a, false) s ∧
    (let ea := a + s.cpu.x.setWidth 16
     fetchAddress (.abx a) s = .ok (ea, decide (a &&& 0xFF00 ≠ ea &&& 0xFF00)) s) ∧
    (let ea := a + s.cpu.y.setWidth 16
     fetchAddress (.aby a) s = .ok (ea, decide (a &&& 0xFF00 ≠ ea &&& 0xFF00)) s) ∧
    (let lo := Memory.read s.wram (z + s.cpu.x).toNat
     let hi := Memory.read s.wram (z + s.cpu.x + 1).toNat
     fetchAddress (.izx z) s = .ok (hi ++ lo, false) s) ∧
    (let lo := Memory.read s.wram z.toNat
     let hi := Memory.read s.wram (z + 1).toNat
     let base : Word := hi ++ lo
     let ea := base + s.cpu.y.setWidth 16
     fetchAddress (.izy z) s = .ok (ea, decide (base &&& 0xFF00 ≠ ea &&& 0xFF00)) s)

/-- O7. `FetchValue`: A for the accumulator, the operand byte for an immediate, and for a memory mode one read at the
effective address (40_addressing_modes.md R202, R203, R214). -/
def Obligations.FetchValueForms : Prop :=
  ∀ (s : State) (v : Byte) (m : MemOperand),
    fetchValue .acc s = .ok ⟨s.cpu.a, false, .acc⟩ s ∧ fetchValue (.imm v) s = .ok ⟨v, false, .none⟩ s ∧
    ∃ e, fetchAddress m s = .ok e s ∧
      (∀ b t, busRead e.1 s = .ok b t → fetchValue (.mem m) s = .ok ⟨b, e.2, .mem e.1⟩ t) ∧
      (∀ f, busRead e.1 s = .fault f → fetchValue (.mem m) s = .fault f)

/-- O8. A CPU read by address range (20_memory.md R104, R106, R107, R109, R110; 45_ppu_registers.md R436): the byte, the
state after it, or the fault. -/
def Obligations.BusReadByRange : Prop :=
  ∀ (s : State) (a : Word), let n := a.toNat
    (n < 0x2000 → busRead a s = .ok (Memory.read s.wram (n % 0x800)) s) ∧
    (0x2000 ≤ n → n < 0x4000 → n % 8 ∈ [0, 1, 3, 5, 6] → busRead a s = .fault (.f2PpuPortRead s.cpu.pc a s)) ∧
    (0x4000 ≤ n → n < 0x4020 → n ≠ 0x4015 → n ≠ 0x4016 → n ≠ 0x4017 →
      busRead a s = .ok (Config.freeByte s.draws) { s with draws := s.draws + 1 }) ∧
    (0x4020 ≤ n → n < 0x6000 → busRead a s = .fault (.f5Unmapped s.cpu.pc a s)) ∧
    (0x6000 ≤ n → n < 0x8000 → busRead a s =
      if s.params.prgRamPresent then .ok (Memory.read s.prgRam (n - 0x6000)) s
      else .fault (.f5Unmapped s.cpu.pc a s)) ∧
    (0x8000 ≤ n → busRead a s = .ok (Memory.read s.cart.prg ((n - 0x8000) % s.cart.prgSize)) s)

/-- O9. A CPU write by address range outside the PPU ports and the APU (20_memory.md R104, R107, R108, R110, R120). -/
def Obligations.BusWriteByRange : Prop :=
  ∀ (s : State) (a : Word) (d : Byte), let n := a.toNat
    (n < 0x2000 → busWrite a d s = .ok () { s with wram := Memory.write s.wram (n % 0x800) d }) ∧
    (n = 0x4014 → busWrite a d s = .ok () { s with bus := { dmaPending := true, dmaPage := d } }) ∧
    (0x4018 ≤ n → n < 0x4020 → busWrite a d s = .ok () s) ∧
    (0x4020 ≤ n → n < 0x6000 → busWrite a d s = .fault (.f5Unmapped s.cpu.pc a s)) ∧
    (0x6000 ≤ n → n < 0x8000 → busWrite a d s =
      if s.params.prgRamPresent then .ok () { s with prgRam := Memory.write s.prgRam (n - 0x6000) d }
      else .fault (.f5Unmapped s.cpu.pc a s)) ∧
    (0x8000 ≤ n → busWrite a d s =
      if n - 0x8000 < s.cart.prgSize then
        .ok () { s with cart := { s.cart with prg := Memory.write s.cart.prg (n - 0x8000) d } }
      else .fault (.f6PrgBounds s.cpu.pc a s))

/-- O10. Storage: a byte written to an address with storage behind it is read at every address of the same cell, mirrors
included, and every other cell keeps its byte (20_memory.md R105, R130). -/
def Obligations.StorageReadsBackItsLastWrite : Prop :=
  ∀ (s t : State) (a : Word) (d : Byte) (c : StoreCell), s.Inv → cellOf s a = some c → busWrite a d s = .ok () t →
    (∀ b, cellOf s b = some c → busRead b t = .ok d t) ∧
    (∀ b, cellOf s b ≠ some c → storedByte t b = storedByte s b)

/-! ## Instructions: results and completion -/

/-- O11. LDA, LDX, LDY and LAX (41_load_store_transfer.md R230 to R232; 44_unofficial.md R387). -/
def Obligations.LoadRules : Prop :=
  ReadRule .lda [(0xA9, .imm), (0xA5, .zp), (0xB5, .zpx), (0xAD, .abs), (0xBD, .abx), (0xB9, .aby), (0xA1, .izx), (0xB1, .izy)]
    (fun v c => ruleNZ v { c with a := v }) ∧
  ReadRule .ldx [(0xA2, .imm), (0xA6, .zp), (0xB6, .zpy), (0xAE, .abs), (0xBE, .aby)]
    (fun v c => ruleNZ v { c with x := v }) ∧
  ReadRule .ldy [(0xA0, .imm), (0xA4, .zp), (0xB4, .zpx), (0xAC, .abs), (0xBC, .abx)]
    (fun v c => ruleNZ v { c with y := v }) ∧
  ReadRule .lax [(0xA7, .zp), (0xB7, .zpy), (0xAF, .abs), (0xBF, .aby), (0xA3, .izx), (0xB3, .izy)]
    (fun v c => ruleNZ v { c with a := v, x := v })

/-- O12. AND, ORA, EOR and BIT (42_arithmetic_logic.md R273 to R276). -/
def Obligations.LogicRules : Prop :=
  ReadRule .and [(0x29, .imm), (0x25, .zp), (0x35, .zpx), (0x2D, .abs), (0x3D, .abx), (0x39, .aby), (0x21, .izx), (0x31, .izy)]
    (fun v c => ruleNZ (c.a &&& v) { c with a := c.a &&& v }) ∧
  ReadRule .ora [(0x09, .imm), (0x05, .zp), (0x15, .zpx), (0x0D, .abs), (0x1D, .abx), (0x19, .aby), (0x01, .izx), (0x11, .izy)]
    (fun v c => ruleNZ (c.a ||| v) { c with a := c.a ||| v }) ∧
  ReadRule .eor [(0x49, .imm), (0x45, .zp), (0x55, .zpx), (0x4D, .abs), (0x5D, .abx), (0x59, .aby), (0x41, .izx), (0x51, .izy)]
    (fun v c => ruleNZ (c.a ^^^ v) { c with a := c.a ^^^ v }) ∧
  ReadRule .bit [(0x24, .zp), (0x2C, .abs)]
    (fun v c => { c with z := (c.a &&& v) == 0, n := v.getLsbD 7, v := v.getLsbD 6 })

/-- O13. ADC and SBC, the alias 0xEB among them (42_arithmetic_logic.md R270 to R272; 44_unofficial.md R393). -/
def Obligations.AddSubtractRules : Prop :=
  ReadRule .adc [(0x69, .imm), (0x65, .zp), (0x75, .zpx), (0x6D, .abs), (0x7D, .abx), (0x79, .aby), (0x61, .izx), (0x71, .izy)]
    (fun v c => ruleAddCore v c) ∧
  ReadRule .sbc [(0xE9, .imm), (0xE5, .zp), (0xF5, .zpx), (0xED, .abs), (0xFD, .abx), (0xF9, .aby), (0xE1, .izx), (0xF1, .izy),
      (0xEB, .imm)]
    (fun v c => ruleAddCore (v ^^^ 0xFF) c)

/-- O14. What subtraction computes, as integers (42_arithmetic_logic.md R272): A − v − (1 − C) modulo 256; C is no borrow; V
is a signed result outside [−128, 127]; D changes nothing. -/
def Obligations.SubtractionAsIntegers : Prop :=
  ∀ (v : Byte) (c : Cpu), let borrow : Int := if c.c then 0 else 1
    let u : Int := c.a.toNat - v.toNat - borrow
    let w : Int := c.a.toInt - v.toInt - borrow
    let r := c.addCore (v ^^^ 0xFF)
    r.a = BitVec.ofInt 8 u ∧ (r.c = true ↔ 0 ≤ u) ∧ (r.v = true ↔ w < -128 ∨ 127 < w) ∧
      (r.n = true ↔ r.a.toInt < 0) ∧ (r.z = true ↔ r.a = 0) ∧
      ∀ b, ({ c with d := b } : Cpu).addCore (v ^^^ 0xFF) = { r with d := b }

/-- O15. CMP, CPX and CPY (42_arithmetic_logic.md R277 to R280). -/
def Obligations.CompareRules : Prop :=
  ReadRule .cmp [(0xC9, .imm), (0xC5, .zp), (0xD5, .zpx), (0xCD, .abs), (0xDD, .abx), (0xD9, .aby), (0xC1, .izx), (0xD1, .izy)]
    (fun v c => ruleCompare c.a v c) ∧
  ReadRule .cpx [(0xE0, .imm), (0xE4, .zp), (0xEC, .abs)] (fun v c => ruleCompare c.x v c) ∧
  ReadRule .cpy [(0xC0, .imm), (0xC4, .zp), (0xCC, .abs)] (fun v c => ruleCompare c.y v c)

/-- O16. ANC, ALR, ARR and AXS (44_unofficial.md R389 to R392). -/
def Obligations.ImmediateCombinationRules : Prop :=
  ReadRule .anc [(0x0B, .imm), (0x2B, .imm)]
    (fun v c => { ruleNZ (c.a &&& v) { c with a := c.a &&& v } with c := (c.a &&& v).getLsbD 7 }) ∧
  ReadRule .alr [(0x4B, .imm)]
    (fun v c => let t := c.a &&& v
      ruleNZ (t >>> 1) { c with c := t.getLsbD 0, a := t >>> 1 }) ∧
  ReadRule .arr [(0x6B, .imm)]
    (fun v c => let r := ((c.a &&& v) >>> 1) ||| ((BitVec.ofBool c.c).setWidth 8 <<< 7)
      { ruleNZ r { c with a := r } with c := r.getLsbD 6, v := r.getLsbD 6 ^^ r.getLsbD 5 }) ∧
  ReadRule .axs [(0xCB, .imm)]
    (fun v c => let t := c.a &&& c.x
      ruleNZ (t - v) { c with c := decide (t.toNat ≥ v.toNat), x := t - v })

/-- O17. STA, STX, STY and SAX (41_load_store_transfer.md R233 to R235; 44_unofficial.md R388). -/
def Obligations.StoreRules : Prop :=
  StoreRule .sta [(0x85, .zp), (0x95, .zpx), (0x8D, .abs), (0x9D, .abx), (0x99, .aby), (0x81, .izx), (0x91, .izy)] (fun c => c.a) ∧
  StoreRule .stx [(0x86, .zp), (0x96, .zpy), (0x8E, .abs)] (fun c => c.x) ∧
  StoreRule .sty [(0x84, .zp), (0x94, .zpx), (0x8C, .abs)] (fun c => c.y) ∧
  StoreRule .sax [(0x87, .zp), (0x97, .zpy), (0x8F, .abs), (0x83, .izx)] (fun c => c.a &&& c.x)

/-- O18. The register transfers (41_load_store_transfer.md R236 to R241) and the register increments and decrements
(42_arithmetic_logic.md R283 to R286). -/
def Obligations.TransferAndCountRules : Prop :=
  ImpliedRule .tax 0xAA 2 (fun c => ruleNZ c.a { c with x := c.a }) ∧
  ImpliedRule .tay 0xA8 2 (fun c => ruleNZ c.a { c with y := c.a }) ∧
  ImpliedRule .txa 0x8A 2 (fun c => ruleNZ c.x { c with a := c.x }) ∧
  ImpliedRule .tya 0x98 2 (fun c => ruleNZ c.y { c with a := c.y }) ∧
  ImpliedRule .tsx 0xBA 2 (fun c => ruleNZ c.sp { c with x := c.sp }) ∧
  ImpliedRule .txs 0x9A 2 (fun c => { c with sp := c.x }) ∧
  ImpliedRule .inx 0xE8 2 (fun c => ruleNZ (c.x + 1) { c with x := c.x + 1 }) ∧
  ImpliedRule .iny 0xC8 2 (fun c => ruleNZ (c.y + 1) { c with y := c.y + 1 }) ∧
  ImpliedRule .dex 0xCA 2 (fun c => ruleNZ (c.x - 1) { c with x := c.x - 1 }) ∧
  ImpliedRule .dey 0x88 2 (fun c => ruleNZ (c.y - 1) { c with y := c.y - 1 })

/-- O19. PHA, PHP, PLA and PLP (41_load_store_transfer.md R242 to R245, R250, R251; 10_state.md R36, R37): their encodings
and cycles, and the whole next state. -/
def Obligations.StackInstructionRules : Prop :=
  (∀ i : Instr, (i.mnemonic = .pha ↔ (i.row.opcode, i.row.mode, i.row.baseCycles) = (0x48, .imp, 3)) ∧
    (i.mnemonic = .php ↔ (i.row.opcode, i.row.mode, i.row.baseCycles) = (0x08, .imp, 3)) ∧
    (i.mnemonic = .pla ↔ (i.row.opcode, i.row.mode, i.row.baseCycles) = (0x68, .imp, 4)) ∧
    (i.mnemonic = .plp ↔ (i.row.opcode, i.row.mode, i.row.baseCycles) = (0x28, .imp, 4))) ∧
  (∀ i s, i.mnemonic = .pha → exec i s = .next { s with
    wram := Memory.write s.wram (0x100 + s.cpu.sp.toNat) s.cpu.a
    cpu := { s.cpu with sp := s.cpu.sp - 1, pc := s.cpu.pc + 1 }
    insCycles := 3 }) ∧
  (∀ i s, i.mnemonic = .php → exec i s = .next { s with
    wram := Memory.write s.wram (0x100 + s.cpu.sp.toNat)
      (BitVec.ofBool s.cpu.n ++ BitVec.ofBool s.cpu.v ++ 0b11#2 ++ BitVec.ofBool s.cpu.d ++ BitVec.ofBool s.cpu.i ++
        BitVec.ofBool s.cpu.z ++ BitVec.ofBool s.cpu.c)
    cpu := { s.cpu with sp := s.cpu.sp - 1, pc := s.cpu.pc + 1 }
    insCycles := 3 }) ∧
  (∀ i s, i.mnemonic = .pla → let b := Memory.read s.wram (0x100 + (s.cpu.sp + 1).toNat)
    exec i s = .next { s with
      cpu := { ruleNZ b { s.cpu with a := b } with sp := s.cpu.sp + 1, pc := s.cpu.pc + 1 }
      insCycles := 4 }) ∧
  (∀ i s, i.mnemonic = .plp → let b := Memory.read s.wram (0x100 + (s.cpu.sp + 1).toNat)
    exec i s = .next { s with
      cpu := { s.cpu with n := b.getLsbD 7, v := b.getLsbD 6, d := b.getLsbD 3, i := b.getLsbD 2, z := b.getLsbD 1,
                          c := b.getLsbD 0, sp := s.cpu.sp + 1, pc := s.cpu.pc + 1 }
      insCycles := 4 })

/-- O20. INC and DEC (42_arithmetic_logic.md R281, R282). -/
def Obligations.IncrementMemoryRules : Prop :=
  ModifyRule .inc [(0xE6, .zp), (0xF6, .zpx), (0xEE, .abs), (0xFE, .abx)] (fun v _ => v + 1) (fun _ c => c) ruleNZ ∧
  ModifyRule .dec [(0xC6, .zp), (0xD6, .zpx), (0xCE, .abs), (0xDE, .abx)] (fun v _ => v - 1) (fun _ c => c) ruleNZ

/-- O21. ASL, LSR, ROL and ROR, on A and on memory (42_arithmetic_logic.md R287 to R290). -/
def Obligations.ShiftRules : Prop :=
  ModifyRule .asl [(0x0A, .acc), (0x06, .zp), (0x16, .zpx), (0x0E, .abs), (0x1E, .abx)]
    (fun v _ => v <<< 1) (fun v c => { c with c := v.getLsbD 7 }) ruleNZ ∧
  ModifyRule .lsr [(0x4A, .acc), (0x46, .zp), (0x56, .zpx), (0x4E, .abs), (0x5E, .abx)]
    (fun v _ => v >>> 1) (fun v c => { c with c := v.getLsbD 0 }) ruleNZ ∧
  ModifyRule .rol [(0x2A, .acc), (0x26, .zp), (0x36, .zpx), (0x2E, .abs), (0x3E, .abx)]
    (fun v c => (v <<< 1) ||| (BitVec.ofBool c.c).setWidth 8) (fun v c => { c with c := v.getLsbD 7 }) ruleNZ ∧
  ModifyRule .ror [(0x6A, .acc), (0x66, .zp), (0x76, .zpx), (0x6E, .abs), (0x7E, .abx)]
    (fun v c => (v >>> 1) ||| ((BitVec.ofBool c.c).setWidth 8 <<< 7)) (fun v c => { c with c := v.getLsbD 0 }) ruleNZ

/-- O22. SLO, RLA, SRE, RRA, DCP and ISC (44_unofficial.md R381 to R386). -/
def Obligations.CombinedModifyRules : Prop :=
  ModifyRule .slo [(0x07, .zp), (0x17, .zpx), (0x0F, .abs), (0x1F, .abx), (0x1B, .aby), (0x03, .izx), (0x13, .izy)]
    (fun v _ => v <<< 1) (fun v c => { c with c := v.getLsbD 7 }) (fun r c => ruleNZ (c.a ||| r) { c with a := c.a ||| r }) ∧
  ModifyRule .rla [(0x27, .zp), (0x37, .zpx), (0x2F, .abs), (0x3F, .abx), (0x3B, .aby), (0x23, .izx), (0x33, .izy)]
    (fun v c => (v <<< 1) ||| (BitVec.ofBool c.c).setWidth 8) (fun v c => { c with c := v.getLsbD 7 })
    (fun r c => ruleNZ (c.a &&& r) { c with a := c.a &&& r }) ∧
  ModifyRule .sre [(0x47, .zp), (0x57, .zpx), (0x4F, .abs), (0x5F, .abx), (0x5B, .aby), (0x43, .izx), (0x53, .izy)]
    (fun v _ => v >>> 1) (fun v c => { c with c := v.getLsbD 0 }) (fun r c => ruleNZ (c.a ^^^ r) { c with a := c.a ^^^ r }) ∧
  ModifyRule .rra [(0x67, .zp), (0x77, .zpx), (0x6F, .abs), (0x7F, .abx), (0x7B, .aby), (0x63, .izx), (0x73, .izy)]
    (fun v c => (v >>> 1) ||| ((BitVec.ofBool c.c).setWidth 8 <<< 7)) (fun v c => { c with c := v.getLsbD 0 }) ruleAddCore ∧
  ModifyRule .dcp [(0xC7, .zp), (0xD7, .zpx), (0xCF, .abs), (0xDF, .abx), (0xDB, .aby), (0xC3, .izx), (0xD3, .izy)]
    (fun v _ => v - 1) (fun _ c => c) (fun r c => ruleCompare c.a r c) ∧
  ModifyRule .isc [(0xE7, .zp), (0xF7, .zpx), (0xEF, .abs), (0xFF, .abx), (0xFB, .aby), (0xE3, .izx), (0xF3, .izy)]
    (fun v _ => v + 1) (fun _ c => c) (fun r c => ruleAddCore (r ^^^ 0xFF) c)

/-- O23. The eight branches (43_control_flow.md R330 to R338). -/
def Obligations.BranchRules : Prop :=
  BranchRule .bcc 0x90 (fun c => !c.c) ∧ BranchRule .bcs 0xB0 (fun c => c.c) ∧
  BranchRule .beq 0xF0 (fun c => c.z) ∧ BranchRule .bne 0xD0 (fun c => !c.z) ∧
  BranchRule .bmi 0x30 (fun c => c.n) ∧ BranchRule .bpl 0x10 (fun c => !c.n) ∧
  BranchRule .bvc 0x50 (fun c => !c.v) ∧ BranchRule .bvs 0x70 (fun c => c.v)

/-- O24. JMP absolute and indirect, with the page wrap of the pointer (43_control_flow.md R340 to R342; the order of the two
reads is the model's, log entry 9): their encodings and cycles, and the whole next state. -/
def Obligations.JumpRules : Prop :=
  (∀ i : Instr, i.mnemonic = .jmp ↔
    (i.row.opcode, i.row.mode, i.row.baseCycles) ∈ [(0x4C, .abs, 3), (0x6C, .ind, 5)]) ∧
  (∀ a s, exec (.jmpAbs a) s = .next { s with cpu := { s.cpu with pc := a }, insCycles := 3 }) ∧
  (∀ p s, pointerReadable p s = true → ∃ lo s1 hi s2, busRead p s = .ok lo s1 ∧
    busRead ((p &&& 0xFF00) ||| ((p + 1) &&& 0x00FF)) s1 = .ok hi s2 ∧
    exec (.jmpInd p) s = .next { s2 with cpu := { s.cpu with pc := hi ++ lo }, insCycles := 5 }) ∧
  (∀ p s, pointerReadable p s = false → ∃ f, exec (.jmpInd p) s = .fault f)

/-- O25. JSR and RTS (43_control_flow.md R343, R344): their encodings and cycles, and the whole next state; the fetch of a JSR
reads its operand and stores nothing, so the pushes come after it. -/
def Obligations.SubroutineRules : Prop :=
  (∀ i : Instr, (i.mnemonic = .jsr ↔ (i.row.opcode, i.row.mode, i.row.baseCycles) = (0x20, .abs, 6)) ∧
    (i.mnemonic = .rts ↔ (i.row.opcode, i.row.mode, i.row.baseCycles) = (0x60, .imp, 6))) ∧
  (∀ (s t : State) (a : Word), fetch s = .ok (.jsr a) t → t.cpu = s.cpu ∧ t.wram = s.wram) ∧
  (∀ a s, let ret := s.cpu.pc + 2
    exec (.jsr a) s = .next { s with
      wram := Memory.write (Memory.write s.wram (0x100 + s.cpu.sp.toNat) (ret.extractLsb' 8 8))
        (0x100 + (s.cpu.sp - 1).toNat) (ret.extractLsb' 0 8)
      cpu := { s.cpu with sp := s.cpu.sp - 2, pc := a }
      insCycles := 6 }) ∧
  (∀ s, let lo := Memory.read s.wram (0x100 + (s.cpu.sp + 1).toNat)
    let hi := Memory.read s.wram (0x100 + (s.cpu.sp + 2).toNat)
    exec .rts s = .next { s with cpu := { s.cpu with sp := s.cpu.sp + 2, pc := (hi ++ lo : Word) + 1 }, insCycles := 6 })

/-- O26. RTI (43_control_flow.md R345; 10_state.md R37): its encoding and cycles, and the whole next state. -/
def Obligations.ReturnFromInterruptRule : Prop :=
  (∀ i : Instr, i.mnemonic = .rti ↔ (i.row.opcode, i.row.mode, i.row.baseCycles) = (0x40, .imp, 6)) ∧
  ∀ s : State, let b := Memory.read s.wram (0x100 + (s.cpu.sp + 1).toNat)
    let lo := Memory.read s.wram (0x100 + (s.cpu.sp + 2).toNat)
    let hi := Memory.read s.wram (0x100 + (s.cpu.sp + 3).toNat)
    exec .rti s = .next { s with
      cpu := { s.cpu with n := b.getLsbD 7, v := b.getLsbD 6, d := b.getLsbD 3, i := b.getLsbD 2, z := b.getLsbD 1,
                          c := b.getLsbD 0, sp := s.cpu.sp + 3, pc := hi ++ lo, inNmi := false }
      insCycles := 6 }

/-- O27. BRK (43_control_flow.md R346; 60_exceptions.md R704), the row 0x00 IMP of 7 cycles: taken, it is the BRK interrupt with return address PC + 2;
while I = 1 or inside an NMI handler only PC advances, by 1. -/
def Obligations.BreakRule : Prop :=
  (∀ i : Instr, i.mnemonic = .brk ↔ (i.row.opcode, i.row.mode, i.row.baseCycles) = (0x00, .imp, 7)) ∧
  (∀ s : State, s.cpu.i = false → s.cpu.inNmi = false →
    exec .brk s = .next { interrupt .brk (s.cpu.pc + 2) s with insCycles := 7 }) ∧
  (∀ s : State, (s.cpu.i = true ∨ s.cpu.inNmi = true) →
    exec .brk s = .next { s with cpu := { s.cpu with pc := s.cpu.pc + 1 }, insCycles := 7 })

/-- O28. The flag instructions (43_control_flow.md R347 to R353). -/
def Obligations.FlagInstructionRules : Prop :=
  ImpliedRule .clc 0x18 2 (fun c => { c with c := false }) ∧ ImpliedRule .sec 0x38 2 (fun c => { c with c := true }) ∧
  ImpliedRule .cli 0x58 2 (fun c => { c with i := false }) ∧ ImpliedRule .sei 0x78 2 (fun c => { c with i := true }) ∧
  ImpliedRule .cld 0xD8 2 (fun c => { c with d := false }) ∧ ImpliedRule .sed 0xF8 2 (fun c => { c with d := true }) ∧
  ImpliedRule .clv 0xB8 2 (fun c => { c with v := false })

/-- O29. NOP, official and unofficial (43_control_flow.md R354; 44_unofficial.md R394): with no operand only PC advances; a
memory mode performs its one read and discards the value. -/
def Obligations.NopRules : Prop :=
  (∀ i : Instr, i.mnemonic = .nop ↔ (i.row.opcode, i.row.mode, i.row.baseCycles, i.row.pageCross) ∈
    [(0xEA, .imp, 2, false), (0x1A, .imp, 2, false), (0x3A, .imp, 2, false), (0x5A, .imp, 2, false),
     (0x7A, .imp, 2, false), (0xDA, .imp, 2, false), (0xFA, .imp, 2, false), (0x80, .imm, 2, false),
     (0x82, .imm, 2, false), (0x89, .imm, 2, false), (0xC2, .imm, 2, false), (0xE2, .imm, 2, false),
     (0x04, .zp, 3, false), (0x44, .zp, 3, false), (0x64, .zp, 3, false), (0x14, .zpx, 4, false),
     (0x34, .zpx, 4, false), (0x54, .zpx, 4, false), (0x74, .zpx, 4, false), (0xD4, .zpx, 4, false),
     (0xF4, .zpx, 4, false), (0x0C, .abs, 4, false), (0x1C, .abx, 4, true), (0x3C, .abx, 4, true),
     (0x5C, .abx, 4, true), (0x7C, .abx, 4, true), (0xDC, .abx, 4, true), (0xFC, .abx, 4, true)]) ∧
  (∀ i s, i.mnemonic = .nop → i.operand = .imp →
    exec i s = .next { s with cpu := { s.cpu with pc := s.cpu.pc + 1 }, insCycles := 2 }) ∧
  (∀ i s o, i.mnemonic = .nop → i.operand = .value o →
    (operandReadable o s = true → ∃ r s1, fetchValue o s = .ok r s1 ∧
      exec i s = .next { s1 with
        cpu := { s.cpu with pc := s.cpu.pc + BitVec.ofNat 16 i.length }
        insCycles := i.row.baseCycles + if i.row.pageCross && r.cross then 1 else 0 }) ∧
    (operandReadable o s = false → ∃ f, fetchValue o s = .fault f ∧ exec i s = .fault f))

/-- O30. The opcodes that fault (44_unofficial.md R397 to R404): JAM and the eight unstable ones, in every state. -/
def Obligations.FaultingOpcodes : Prop :=
  FaultRule .jam [(0x02, .imp, 2, false), (0x12, .imp, 2, false), (0x22, .imp, 2, false), (0x32, .imp, 2, false),
    (0x42, .imp, 2, false), (0x52, .imp, 2, false), (0x62, .imp, 2, false), (0x72, .imp, 2, false),
    (0x92, .imp, 2, false), (0xB2, .imp, 2, false), (0xD2, .imp, 2, false), (0xF2, .imp, 2, false)] ∧
  FaultRule .xaa [(0x8B, .imm, 2, false)] ∧ FaultRule .ahx [(0x93, .izy, 6, false), (0x9F, .aby, 5, false)] ∧
  FaultRule .tas [(0x9B, .aby, 5, false)] ∧ FaultRule .shy [(0x9C, .abx, 5, false)] ∧
  FaultRule .shx [(0x9E, .aby, 5, false)] ∧ FaultRule .lxa [(0xAB, .imm, 2, false)] ∧
  FaultRule .las [(0xBB, .aby, 4, true)]

/-! ## Instructions: frames -/

/-- O31. Which instruction writes which register and flag (10_state.md R30, R31, R35, R39): every other one leaves it alone. -/
def Obligations.RegisterWriters : Prop :=
  ∀ (i : Instr) (s t : State), exec i s = .next t → let m := i.mnemonic
    (t.cpu.a ≠ s.cpu.a →
      m ∈ [.lda, .txa, .tya, .pla, .adc, .sbc, .and, .ora, .eor, .lax, .anc, .alr, .arr, .slo, .rla, .sre, .rra, .isc] ∨
      m ∈ [.asl, .lsr, .rol, .ror] ∧ i.operand = .value .acc) ∧
    (t.cpu.x ≠ s.cpu.x → m ∈ [.ldx, .tax, .tsx, .inx, .dex, .lax, .axs]) ∧
    (t.cpu.y ≠ s.cpu.y → m ∈ [.ldy, .tay, .iny, .dey]) ∧
    (t.cpu.sp ≠ s.cpu.sp → m ∈ [.txs, .pha, .php, .pla, .plp, .jsr, .rts, .rti, .brk]) ∧
    (t.cpu.v ≠ s.cpu.v → m ∈ [.adc, .sbc, .bit, .clv, .plp, .rti, .arr, .rra, .isc]) ∧
    (t.cpu.d ≠ s.cpu.d → m ∈ [.cld, .sed, .plp, .rti]) ∧
    (t.cpu.i ≠ s.cpu.i → m ∈ [.cli, .sei, .plp, .rti, .brk]) ∧
    (t.cpu.c ≠ s.cpu.c → m ∈ [.adc, .sbc, .cmp, .cpx, .cpy, .asl, .lsr, .rol, .ror, .clc, .sec, .plp, .rti, .anc, .alr, .arr,
      .axs, .slo, .rla, .sre, .rra, .dcp, .isc]) ∧
    (t.cpu.n ≠ s.cpu.n ∨ t.cpu.z ≠ s.cpu.z → m ∈ [.lda, .ldx, .ldy, .lax, .tax, .tay, .txa, .tya, .tsx, .pla, .plp, .rti, .adc,
      .sbc, .and, .ora, .eor, .bit, .cmp, .cpx, .cpy, .inc, .dec, .inx, .iny, .dex, .dey, .asl, .lsr, .rol, .ror, .slo, .rla,
      .sre, .rra, .dcp, .isc, .anc, .alr, .arr, .axs]) ∧
    (t.cpu.inNmi ≠ s.cpu.inNmi → m = .rti ∧ t.cpu.inNmi = false)

/-- O32. The frame of an instruction that stores nothing: every byte of the CPU's storage, of the PPU space and of OAM reads
as before; outside the CPU only what a read can change may differ: the PPU's VBlank flag, toggle, read buffer and address, how
far a controller has been read, and how many oracle bytes were drawn. -/
def Obligations.FrameOfInstructionsThatStoreNothing : Prop :=
  ∀ (i : Instr) (s t : State), storesNothing i = true → exec i s = .next t →
    (∀ a, storedByte t a = storedByte s a) ∧ SamePpuMemory s t ∧
    t = { s with
      cpu := t.cpu
      ppu := { s.ppu with vblank := t.ppu.vblank, w := t.ppu.w, rdbuf := t.ppu.rdbuf, v := t.ppu.v }
      ctl := { s.ctl with
        pad0 := { s.ctl.pad0 with index := t.ctl.pad0.index }, pad1 := { s.ctl.pad1 with index := t.ctl.pad1.index } }
      draws := t.draws
      insCycles := t.insCycles }

/-- O33. The frame of STA, STX, STY and SAX: only the cell of the effective address changes in the CPU's storage; in the PPU
space only the byte PPUDATA addresses, and only through port 7; in OAM only the byte at OAMADDR, and only through port 4. -/
def Obligations.FrameOfStores : Prop :=
  ∀ (i : Instr) (m : MemOperand) (s t : State) (e : Word × Bool), storesValue i = true → i.operand = .value (.mem m) →
    fetchAddress m s = .ok e s → exec i s = .next t → let ea := e.1.toNat
    (∀ a, cellOf s a ≠ cellOf s e.1 → storedByte t a = storedByte s a) ∧
    (∀ a, a < 0x4000 → ¬(0x2000 ≤ ea ∧ ea < 0x4000 ∧ ea % 8 = 7 ∧ ppuCellOf s a = ppuCellOf s s.ppu.dataAddr) →
      ppuPeek t a = ppuPeek s a) ∧
    (∀ k, ¬(0x2000 ≤ ea ∧ ea < 0x4000 ∧ ea % 8 = 4 ∧ k = s.ppu.oamaddr.toNat) →
      Memory.read t.ppu.oam k = Memory.read s.ppu.oam k) ∧
    (¬(0x2000 ≤ ea ∧ ea < 0x4000) → t.ppu = s.ppu) ∧
    (¬(0x4000 ≤ ea ∧ ea < 0x4018) → t.apu = s.apu ∧ t.bus = s.bus ∧ t.ctl = s.ctl) ∧
    t.emu = s.emu ∧ t.params = s.params ∧
    t.cpu = { s.cpu with pc := s.cpu.pc + BitVec.ofNat 16 i.length }

/-- O34. The frame of a read-modify-write instruction on memory: as for a store, in the state s1 after its one read at the
effective address. -/
def Obligations.FrameOfModifications : Prop :=
  ∀ (i : Instr) (m : MemOperand) (s s1 t : State) (e : Word × Bool) (v : Byte), modifiesMemory i = true →
    i.operand = .value (.mem m) → fetchAddress m s = .ok e s → busRead e.1 s = .ok v s1 → exec i s = .next t →
    let ea := e.1.toNat
    (∀ a, cellOf s a ≠ cellOf s e.1 → storedByte t a = storedByte s a) ∧
    (∀ a, a < 0x4000 → ¬(0x2000 ≤ ea ∧ ea < 0x4000 ∧ ea % 8 = 7 ∧ ppuCellOf s1 a = ppuCellOf s1 s1.ppu.dataAddr) →
      ppuPeek t a = ppuPeek s a) ∧
    (∀ k, ¬(0x2000 ≤ ea ∧ ea < 0x4000 ∧ ea % 8 = 4 ∧ k = s1.ppu.oamaddr.toNat) →
      Memory.read t.ppu.oam k = Memory.read s.ppu.oam k) ∧
    (¬(0x2000 ≤ ea ∧ ea < 0x4000) → t.ppu = s.ppu) ∧
    (¬(0x4000 ≤ ea ∧ ea < 0x4018) → t.apu = s.apu ∧ t.bus = s.bus ∧ t.ctl = s.ctl) ∧
    t.emu = s.emu ∧ t.params = s.params ∧ t.cpu.sp = s.cpu.sp ∧ t.cpu.pc = s.cpu.pc + BitVec.ofNat 16 i.length

/-- O35. The frame of PHA, PHP, JSR and BRK: every byte but the pushed ones, at `0x0100 + SP` and downwards within page 1,
reads as before (41_load_store_transfer.md R250). -/
def Obligations.FrameOfPushes : Prop :=
  ∀ (i : Instr) (s t : State), i.mnemonic ∈ [.pha, .php, .jsr, .brk] → exec i s = .next t →
    (∀ a, (∀ k, k < pushCount i s → cellOf s a ≠ some (.wram (0x100 + (s.cpu.sp - BitVec.ofNat 8 k).toNat))) →
      storedByte t a = storedByte s a) ∧
    t.cpu.sp = s.cpu.sp - BitVec.ofNat 8 (pushCount i s) ∧
    t = { s with cpu := t.cpu, wram := t.wram, insCycles := t.insCycles }

/-- O36. The D flag has no effect (10_state.md R38): an instruction that completes, other than PHP and BRK, which push it,
does the same with D changed, and leaves D as changed unless it writes it. -/
def Obligations.DecimalFlagHasNoEffect : Prop :=
  ∀ (i : Instr) (s t : State) (d : Bool), i.mnemonic ∉ [.php, .brk] → exec i s = .next t →
    exec i { s with cpu := { s.cpu with d := d } } =
      .next { t with cpu := { t.cpu with d := if i.mnemonic ∈ [.cld, .sed, .plp, .rti] then t.cpu.d else d } }

/-! ## PPU ports and the PPU bus -/

/-- O37. Writes of the PPU ports other than PPUDATA, at every mirror (45_ppu_registers.md R421, R422, R424, R426 to R428, R431,
R432). -/
def Obligations.PpuPortWrites : Prop :=
  ∀ (s : State) (a : Word) (d : Byte), 0x2000 ≤ a.toNat → a.toNat < 0x4000 → let port := a.toNat % 8
    let p := s.ppu
    let d15 := d.setWidth 15
    (port = 0 → d.getLsbD 5 = false → busWrite a d s =
      .ok () { s with ppu := { p with ctrl := d, t := (p.t &&& ~~~0x0C00#15) ||| ((d15 &&& 0x03#15) <<< 10) } }) ∧
    (port = 0 → d.getLsbD 5 = true → busWrite a d s = .fault (.f4Sprite8x16 s.cpu.pc a s)) ∧
    (port = 1 → busWrite a d s = .ok () { s with ppu := { p with mask := d } }) ∧
    (port = 2 → busWrite a d s = .ok () s) ∧
    (port = 3 → busWrite a d s = .ok () { s with ppu := { p with oamaddr := d } }) ∧
    (port = 4 → busWrite a d s =
      .ok () { s with ppu := { p with oam := Memory.write p.oam p.oamaddr.toNat d, oamaddr := p.oamaddr + 1 } }) ∧
    (port = 5 → p.w = false → busWrite a d s = .ok () { s with
      ppu := { p with t := (p.t &&& ~~~0x001F#15) ||| (d15 >>> 3), x := d.setWidth 3, w := true } }) ∧
    (port = 5 → p.w = true → busWrite a d s = .ok () { s with
      ppu := { p with t := (p.t &&& ~~~0x73E0#15) ||| ((d15 &&& 0x07#15) <<< 12) ||| ((d15 >>> 3) <<< 5), w := false } }) ∧
    (port = 6 → p.w = false → busWrite a d s = .ok () { s with
      ppu := { p with t := (p.t &&& 0x00FF#15) ||| ((d15 &&& 0x3F#15) <<< 8), w := true } }) ∧
    (port = 6 → p.w = true → busWrite a d s = .ok () { s with
      ppu := { p with t := (p.t &&& 0x7F00#15) ||| d15, v := (p.t &&& 0x7F00#15) ||| d15, w := false } })

/-- O38. PPUDATA writes (45_ppu_registers.md R430, R433; 20_memory.md R112 to R114): the byte stored where the 14-bit address
says, v moved on by 1 or 32; Fault(F7), with v unmoved, past the CHR size. -/
def Obligations.PpuDataWrites : Prop :=
  ∀ (s : State) (a : Word) (d : Byte), 0x2000 ≤ a.toNat → a.toNat < 0x4000 → a.toNat % 8 = 7 →
    let p := s.ppu
    let n := p.v.toNat % 0x4000
    let v := p.v + (if p.ctrl.getLsbD 2 then 32#15 else 1#15)
    (n < 0x2000 → n < s.cart.chrSize → busWrite a d s =
      .ok () { s with cart := { s.cart with chr := Memory.write s.cart.chr n d }, ppu := { p with v := v } }) ∧
    (n < 0x2000 → s.cart.chrSize ≤ n → busWrite a d s = .fault (.f7ChrBounds s.cpu.pc n s)) ∧
    (0x2000 ≤ n → n < 0x3F00 → busWrite a d s =
      .ok () { s with ppu := { p with nt := Memory.write p.nt (ntIndex s.cart.mirroring n) d, v := v } }) ∧
    (0x3F00 ≤ n → busWrite a d s =
      .ok () { s with ppu := { p with pal := Cells.write 0 p.pal (palIndex n) (d.setWidth 6), v := v } })

/-- O39. Reads of PPUSTATUS, OAMDATA and PPUDATA, at every mirror (45_ppu_registers.md R425, R429, R430, R434). -/
def Obligations.PpuPortReads : Prop :=
  ∀ (s : State) (a : Word), 0x2000 ≤ a.toNat → a.toNat < 0x4000 → let port := a.toNat % 8
    let p := s.ppu
    let r := Config.freeByte s.draws
    let n := p.v.toNat % 0x4000
    let v := p.v + (if p.ctrl.getLsbD 2 then 32#15 else 1#15)
    (port = 2 → busRead a s = .ok (BitVec.ofBool p.vblank ++ BitVec.ofBool p.s0hit ++ 0#1 ++ r.extractLsb' 0 5)
      { s with ppu := { p with vblank := false, w := false }, draws := s.draws + 1 }) ∧
    (port = 4 → busRead a s = .ok (Memory.read p.oam p.oamaddr.toNat) s) ∧
    (port = 7 → n < 0x3F00 → ∀ b, ppuPeek s n = some b →
      busRead a s = .ok p.rdbuf { s with ppu := { p with rdbuf := b, v := v } }) ∧
    (port = 7 → n < 0x3F00 → ppuPeek s n = none → busRead a s = .fault (.f7ChrBounds s.cpu.pc n s)) ∧
    (port = 7 → 0x3F00 ≤ n → busRead a s =
      .ok (((p.palRead n).setWidth 8 &&& 0x3F) ||| (r &&& 0xC0))
        { s with
          ppu := { p with rdbuf := Memory.read p.nt (ntIndex s.cart.mirroring (n - 0x1000)), v := v }
          draws := s.draws + 1 })

/-- O40. PPU-space mirroring (20_memory.md R113, R114): 0x3000–0x3EFF mirror 0x2000–0x2EFF; the screens alias as the mirroring
says and no further (two nametable addresses are one byte exactly when their offsets are equal and their screens alias), with
every byte inside `ppu.nt`; the palette mirrors every 32 bytes with the four backdrop entries aliased. -/
def Obligations.PpuSpaceMirroring : Prop :=
  (∀ m a, 0x3000 ≤ a → a < 0x3F00 → ntIndex m a = ntIndex m (a - 0x1000)) ∧
  (∀ k, k < 0x400 → ntIndex .horizontal (0x2000 + k) = ntIndex .horizontal (0x2400 + k) ∧
    ntIndex .horizontal (0x2800 + k) = ntIndex .horizontal (0x2C00 + k) ∧
    ntIndex .vertical (0x2000 + k) = ntIndex .vertical (0x2800 + k) ∧
    ntIndex .vertical (0x2400 + k) = ntIndex .vertical (0x2C00 + k)) ∧
  (∀ k j, k < 0x400 → j < 0x400 → ntIndex .horizontal (0x2000 + k) ≠ ntIndex .horizontal (0x2800 + j) ∧
    ntIndex .vertical (0x2000 + k) ≠ ntIndex .vertical (0x2400 + j)) ∧
  (∀ m a b, 0x2000 ≤ a → a < 0x3F00 → 0x2000 ≤ b → b < 0x3F00 → ntIndex m a < 4096 ∧
    (ntIndex m a = ntIndex m b ↔ a % 0x400 = b % 0x400 ∧
      match m with
      | .horizontal => a / 0x800 % 2 = b / 0x800 % 2
      | .vertical => a / 0x400 % 2 = b / 0x400 % 2)) ∧
  (∀ a, palIndex (a + 0x20) = palIndex a) ∧
  (∀ a b, palIndex a = palIndex b ↔
    a % 0x20 = b % 0x20 ∨ (a % 0x20) % 4 = 0 ∧ (b % 0x20) % 4 = 0 ∧ a % 0x10 = b % 0x10)

/-! ## The PPU's dots -/

/-- O41. The scroll updates (46_ppu_rendering.md R481, R482, R484, R485), by field: coarse X v[4:0], coarse Y v[9:5],
horizontal nametable v[10], vertical nametable v[11], fine Y v[14:12]. -/
def Obligations.ScrollUpdates : Prop :=
  ∀ v t : BitVec 15,
    let cx := fun (w : BitVec 15) => w.extractLsb' 0 5
    let cy := fun (w : BitVec 15) => w.extractLsb' 5 5
    let fy := fun (w : BitVec 15) => w.extractLsb' 12 3
    (cx (incCoarseX v) = cx v + 1 ∧ (incCoarseX v).getLsbD 10 = (v.getLsbD 10 ^^ (cx v == 31)) ∧
      (incCoarseX v).getLsbD 11 = v.getLsbD 11 ∧ cy (incCoarseX v) = cy v ∧ fy (incCoarseX v) = fy v) ∧
    (fy (incY v) = fy v + 1 ∧ (incY v).extractLsb' 0 5 = cx v ∧ (incY v).getLsbD 10 = v.getLsbD 10 ∧
      cy (incY v) = (if fy v ≠ 7 then cy v else if cy v = 29 then 0 else cy v + 1) ∧
      (incY v).getLsbD 11 = (v.getLsbD 11 ^^ (fy v == 7 && cy v == 29))) ∧
    (cx (copyX v t) = cx t ∧ (copyX v t).getLsbD 10 = t.getLsbD 10 ∧ cy (copyX v t) = cy v ∧ fy (copyX v t) = fy v ∧
      (copyX v t).getLsbD 11 = v.getLsbD 11) ∧
    (cy (copyY v t) = cy t ∧ fy (copyY v t) = fy t ∧ (copyY v t).getLsbD 11 = t.getLsbD 11 ∧ cx (copyY v t) = cx v ∧
      (copyY v t).getLsbD 10 = v.getLsbD 10)

/-- O42. The background pixel (46_ppu_rendering.md R476 to R481), with rendering on and the pattern bytes in CHR: the colour
index and the transparent flag of the pixel, every other pixel unchanged, and the column counter and v moved on. -/
def Obligations.BackgroundPixel : Prop :=
  ∀ (s : State) (l d : Nat) (tile attr lo hi : Byte), s.Inv → l < 240 → d < 256 → s.ppu.rendering = true →
    let p := s.ppu
    let base := (if p.ctrl.getLsbD 4 then 0x1000 else 0) + 16 * tile.toNat + p.v.toNat / 0x1000
    ppuPeek s (0x2000 + p.v.toNat % 0x1000) = some tile →
    ppuPeek s (0x23C0 ||| (p.v.toNat &&& 0x0C00) ||| ((p.v.toNat >>> 4) &&& 0x38) ||| ((p.v.toNat >>> 2) &&& 0x07)) = some attr →
    ppuPeek s base = some lo → ppuPeek s (base + 8) = some hi →
    let shown := p.mask.getLsbD 3 && (p.mask.getLsbD 1 || decide (8 ≤ d))
    let bit := 7 - p.fx.toNat
    let c := if shown then 2 * (hi.getLsbD bit).toNat + (lo.getLsbD bit).toNat else 0
    let pid := (attr.toNat >>> (((p.v.toNat >>> 4) &&& 4) ||| (p.v.toNat &&& 2))) &&& 3
    ∃ t, bgPixel l d s = .ok () t ∧
      t.ppu.colorAt l d = (if c = 0 then p.palRead 0x3F00 else p.palRead (0x3F00 + 4 * pid + c)) ∧
      t.ppu.transparent l d = decide (c = 0) ∧
      (∀ l' d', d' < 256 → (l', d') ≠ (l, d) →
        t.ppu.colorAt l' d' = p.colorAt l' d' ∧ t.ppu.transparent l' d' = p.transparent l' d') ∧
      t.ppu.fx = p.fx + 1 ∧ t.ppu.v = (if p.fx = 7 then incCoarseX p.v else p.v) ∧
      t = { s with ppu := { p with color := t.ppu.color, bgt := t.ppu.bgt, fx := t.ppu.fx, v := t.ppu.v } }

/-- O43. The background pixel with rendering off (46_ppu_rendering.md R476): the backdrop, transparent, every other pixel and
v and the column counter unchanged. -/
def Obligations.BackdropPixel : Prop :=
  ∀ (s : State) (l d : Nat), s.Inv → l < 240 → d < 256 → s.ppu.rendering = false →
    ∃ t, bgPixel l d s = .ok () t ∧ t.ppu.colorAt l d = s.ppu.palRead 0x3F00 ∧ t.ppu.transparent l d = true ∧
      (∀ l' d', d' < 256 → (l', d') ≠ (l, d) →
        t.ppu.colorAt l' d' = s.ppu.colorAt l' d' ∧ t.ppu.transparent l' d' = s.ppu.transparent l' d') ∧
      t = { s with ppu := { s.ppu with color := t.ppu.color, bgt := t.ppu.bgt } }

/-- O44. Sprite-0 hit (46_ppu_rendering.md R506, R507): set exactly when the four mask bits are set, the pixel lies in sprite
0's box, its pixel there is not 0, and the background there is opaque; nothing else changes. -/
def Obligations.SpriteZeroHit : Prop :=
  ∀ (s : State) (l x : Nat) (lo hi : Byte), let p := s.ppu
    let y := (Memory.read p.oam 0).toNat
    let n := (Memory.read p.oam 1).toNat
    let at' := Memory.read p.oam 2
    let sx := (Memory.read p.oam 3).toNat
    let inBox := decide (y + 1 ≤ l ∧ l ≤ y + 8 ∧ sx ≤ x ∧ x ≤ sx + 7)
    let enabled := p.mask.getLsbD 1 && p.mask.getLsbD 2 && p.mask.getLsbD 3 && p.mask.getLsbD 4
    let row := if at'.getLsbD 7 then 7 - (l - (y + 1)) else l - (y + 1)
    let bit := if at'.getLsbD 6 then x - sx else 7 - (x - sx)
    let base := (if p.ctrl.getLsbD 3 then 0x1000 else 0) + 16 * n + row
    ((enabled && inBox) = false → sprite0Check l x s = .ok () s) ∧
    ((enabled && inBox) = true → ppuPeek s base = some lo → ppuPeek s (base + 8) = some hi → sprite0Check l x s =
      .ok () { s with ppu := { p with
        s0hit := p.s0hit || ((hi.getLsbD bit || lo.getLsbD bit) && !p.transparent l x) } })

/-- O45. What the compositor draws and what it leaves alone (46_ppu_rendering.md R496 to R499). It draws, on every pixel of the
picture, the colour of the sprite visited last among those that show there, and keeps the pixel where none does. It leaves
alone everything but colours; every pixel that no sprite covers; every pixel whose background is opaque where every covering
sprite is a back sprite; all of it with sprites disabled. With a CHR bank it completes (20_memory.md R112). -/
def Obligations.CompositorFrame : Prop :=
  (∀ (s t : State) (l x : Nat), s.Inv → composite s = .ok () t → s.ppu.mask.getLsbD 4 = true → l < 240 → x < 256 →
    t.ppu.colorAt l x =
      ((spritesByPriority s.params.spriteOrder).findSome? (spriteColor s l x)).getD (s.ppu.colorAt l x)) ∧
  (∀ s : State, 0 < s.cart.chrBanks → ∃ t, composite s = .ok () t) ∧
  ∀ (s t : State), composite s = .ok () t →
    t = { s with ppu := { s.ppu with color := t.ppu.color } } ∧
    (s.ppu.mask.getLsbD 4 = false → t = s) ∧
    ∀ l x, x < 256 →
      (∀ i, i < 64 → (s.ppu.sprite i).covers l x = true →
        (s.ppu.sprite i).attr.getLsbD 5 = true ∧ s.ppu.transparent l x = false) →
      t.ppu.colorAt l x = s.ppu.colorAt l x

/-- O46. VBlank and its flags (46_ppu_rendering.md R490 to R492): at (241, 1), after the compositor, VBlank is set and with
PPUCTRL bit 7 the NMI is entered; at (261, 0) both flags clear; no other dot enters an interrupt or sets VBlank. -/
def Obligations.VblankAndNmi : Prop :=
  (∀ s s1 : State, composite s = .ok () s1 → let s2 : State := { s1 with ppu := { s1.ppu with vblank := true } }
    dotAt 241 1 s = .ok () (if s.ppu.ctrl.getLsbD 7 then interrupt .nmi s.cpu.pc s2 else s2)) ∧
  (∀ s : State, dotAt 261 0 s = .ok () { s with ppu := { s.ppu with vblank := false, s0hit := false } }) ∧
  (∀ (s t : State) (l d : Nat), (l, d) ≠ (241, 1) → dotAt l d s = .ok () t →
    t.cpu = s.cpu ∧ t.emu = s.emu ∧ t.wram = s.wram ∧ (t.ppu.vblank = true → s.ppu.vblank = true))

/-- O47. A run of one frame's dots (46_ppu_rendering.md R471, R472): from any position it completes exactly one frame and
leaves the counters where they were; a shorter run completes one exactly when it passes the last dot. With a CHR bank every
run completes (20_memory.md R112). -/
def Obligations.FrameOfDots : Prop :=
  (∀ (s t : State) (n : Nat) (frame : Bool), s.ppu.lines ≤ 261 → s.ppu.dots ≤ 340 → n ≤ 89342 →
    ppuRun n false s = .ok frame t →
    (frame = true ↔ 89342 ≤ s.ppu.position + n) ∧ t.ppu.position = (s.ppu.position + n) % 89342 ∧
    (n = 89342 → frame = true ∧ t.ppu.lines = s.ppu.lines ∧ t.ppu.dots = s.ppu.dots)) ∧
  (∀ (s : State) (n : Nat), 0 < s.cart.chrBanks → ∃ frame t, ppuRun n false s = .ok frame t)

/-! ## OAM DMA, controllers and the cassette -/

/-- O48. OAM DMA (20_memory.md R121, R122): from a page of storage with OAMADDR 0, the 256 bytes in order into OAM at 513 cycles
or 514 on an odd total; Fault(F3) with OAMADDR not 0; nothing with none pending. -/
def Obligations.OamDma : Prop :=
  (∀ (s : State) (f : Nat → Byte), s.Inv → s.bus.dmaPending = true → s.ppu.oamaddr = 0 →
    (∀ k, k < 256 → storedByte s (s.bus.dmaPage ++ BitVec.ofNat 8 k) = some (f k)) →
    ∃ t, runDma s = .ok (513 + s.emu.totalCycles % 2) t ∧ (∀ k, k < 256 → Memory.read t.ppu.oam k = f k) ∧
      t = { s with bus := { s.bus with dmaPending := false }, ppu := { s.ppu with oam := t.ppu.oam } }) ∧
  (∀ s : State, s.bus.dmaPending = true → s.ppu.oamaddr ≠ 0 → runDma s = .fault (.f3DmaOamAddr s.cpu.pc s)) ∧
  (∀ s : State, s.bus.dmaPending = false → runDma s = .ok 0 s)

/-- O49. The controllers (48_controllers_cassette.md R632, R633): the strobe write, and a read of either controller with the
strobe high, in the first eight reads, and after them. That bit 0 after the eighth read is of one draw and bits 7:1 are of
the next is the model's choice (log entry 7). -/
def Obligations.ControllerPorts : Prop :=
  (∀ (s : State) (d : Byte), ∃ t, busWrite 0x4016 d s = .ok () t ∧ t = { s with ctl := t.ctl } ∧
    t.ctl.strobe = d.getLsbD 0 ∧ t.ctl.pad0.buttons = s.ctl.pad0.buttons ∧ t.ctl.pad1.buttons = s.ctl.pad1.buttons ∧
    (if d.getLsbD 0 = true ∨ s.ctl.strobe = true then
      t.ctl.pad0.shift = s.ctl.pad0.buttons ∧ t.ctl.pad0.index = 0 ∧ t.ctl.pad1.shift = s.ctl.pad1.buttons ∧
        t.ctl.pad1.index = 0
    else t.ctl.pad0 = s.ctl.pad0 ∧ t.ctl.pad1 = s.ctl.pad1)) ∧
  (∀ (s : State) (second : Bool), let pad := if second then s.ctl.pad1 else s.ctl.pad0
    ∃ b t, busRead (if second then 0x4017 else 0x4016) s = .ok b t ∧
      (s.ctl.strobe = true → b.getLsbD 0 = pad.buttons.getLsbD 0 ∧ t.ctl = s.ctl) ∧
      (s.ctl.strobe = false → pad.index < 8 → b.getLsbD 0 = pad.shift.getLsbD pad.index ∧
        t.ctl = if second then { s.ctl with pad1 := { pad with index := pad.index + 1 } }
          else { s.ctl with pad0 := { pad with index := pad.index + 1 } }) ∧
      (s.ctl.strobe = false → 8 ≤ pad.index → b.getLsbD 0 = (Config.freeByte s.draws).getLsbD 0 ∧ t.ctl = s.ctl) ∧
      b.extractLsb' 1 7 = (Config.freeByte (s.draws + 1)).extractLsb' 1 7 ∧
      t = { s with ctl := t.ctl, draws := s.draws + 2 })

/-- O50. The cassette built from an iNES buffer (48_controllers_cassette.md R640, R641): what is accepted reads back as the
buffer's slices; the faults, in the order of R640. -/
def Obligations.CassetteRoundTrip : Prop :=
  (∀ (buffer : List Byte) (c : Cart), Cart.ofImage buffer = .ok c →
    c.prgBanks = (buffer.getD 4 0).toNat ∧ c.chrBanks = (buffer.getD 5 0).toNat ∧
    (c.mirroring = .vertical ↔ (buffer.getD 6 0).getLsbD 0 = true) ∧
    (∀ o, o < 16384 * c.prgBanks → c.readPrgRom o = buffer.getD (16 + o) 0) ∧
    (∀ o, o < 8192 * c.chrBanks → Memory.read c.chr o = buffer.getD (16 + 16384 * c.prgBanks + o) 0) ∧ c.Inv) ∧
  (∀ buffer : List Byte, let f6 := buffer.getD 6 0
    let f7 := buffer.getD 7 0
    let bad := buffer.length < 16 ∨ buffer.take 4 ≠ [0x4E, 0x45, 0x53, 0x1A] ∨ buffer.getD 4 0 = 0
    let unsupported := f6.getLsbD 2 = true ∨ f6.getLsbD 3 = true ∨ ((f7 &&& 0xF0) ||| (f6 >>> 4)) ≠ 0
    let short := buffer.length < 16 + 16384 * (buffer.getD 4 0).toNat + 8192 * (buffer.getD 5 0).toNat
    (bad → Cart.ofImage buffer = .error .f8MalformedCartridge) ∧
    (¬bad → unsupported → Cart.ofImage buffer = .error .f9UnsupportedCartridge) ∧
    (¬bad → ¬unsupported → short → Cart.ofImage buffer = .error .f8MalformedCartridge) ∧
    (¬bad → ¬unsupported → ¬short → ∃ c, Cart.ofImage buffer = .ok c))

/-- O51. PRG mirroring (48_controllers_cassette.md R643): with one bank, CPU addresses a and a + 0x4000 read the same byte for
0x8000 ≤ a < 0xC000; with two, 0x8000–0xFFFF map one to one onto the 32 KiB. -/
def Obligations.PrgMirroring : Prop :=
  (∀ (s : State) (a : Word), s.cart.prgBanks = 1 → 0x8000 ≤ a.toNat → a.toNat < 0xC000 →
    storedByte s (a + 0x4000) = storedByte s a ∧ ∃ b, busRead a s = .ok b s ∧ busRead (a + 0x4000) s = .ok b s) ∧
  (∀ (s : State) (a b : Word), s.cart.prgBanks = 2 → 0x8000 ≤ a.toNat → 0x8000 ≤ b.toNat → cellOf s a = cellOf s b → a = b)

/-! ## The APU -/

/-- O52. The APU's register writes 0x4000–0x4013 through the bus, but for the channels' fourth registers, which are O53's
(47_apu.md R570 to R572, R574, R575, R577, R578, R580 to R583). -/
def Obligations.ApuRegisterWrites : Prop :=
  ∀ (s : State) (d : Byte), let a := s.apu
    let env := fun (e : Envelope) => { e with halt := d.getLsbD 5, const := d.getLsbD 4, vol := d.extractLsb' 0 4 }
    let low := fun (p : BitVec 11) => (p &&& 0x700#11) ||| d.setWidth 11
    let sq0 := fun (q : Square) => { q with duty := d.extractLsb' 6 2, env := env q.env }
    let sq1 := fun (q : Square) => { q with
      swEn := d.getLsbD 7, swPeriod := d.extractLsb' 4 3, swNeg := d.getLsbD 3, swShift := d.extractLsb' 0 3, swReload := true }
    let sq2 := fun (q : Square) => { q with period := low q.period }
    let put := fun (b : Apu) => (Res.ok () { s with apu := b } : Res Unit)
    busWrite 0x4000 d s = put { a with sq1 := sq0 a.sq1 } ∧ busWrite 0x4004 d s = put { a with sq2 := sq0 a.sq2 } ∧
    busWrite 0x4001 d s = put { a with sq1 := sq1 a.sq1 } ∧ busWrite 0x4005 d s = put { a with sq2 := sq1 a.sq2 } ∧
    busWrite 0x4002 d s = put { a with sq1 := sq2 a.sq1 } ∧ busWrite 0x4006 d s = put { a with sq2 := sq2 a.sq2 } ∧
    busWrite 0x4008 d s = put { a with tri := { a.tri with control := d.getLsbD 7, linReloadVal := d.extractLsb' 0 7 } } ∧
    busWrite 0x400A d s = put { a with tri := { a.tri with period := low a.tri.period } } ∧
    busWrite 0x400C d s = put { a with noise := { a.noise with env := env a.noise.env } } ∧
    busWrite 0x400E d s = put { a with noise := { a.noise with mode := d.getLsbD 7, periodIdx := d.extractLsb' 0 4 } } ∧
    busWrite 0x4010 d s = put { a with dmc := { a.dmc with
      irqEn := d.getLsbD 7, loop := d.getLsbD 6, rateIdx := d.extractLsb' 0 4 } } ∧
    busWrite 0x4011 d s = put { a with dmc := { a.dmc with level := d.extractLsb' 0 7 } } ∧
    busWrite 0x4012 d s = put { a with dmc := { a.dmc with addrReg := d } } ∧
    busWrite 0x4013 d s = put { a with dmc := { a.dmc with lenReg := d } } ∧
    busWrite 0x4009 d s = put a ∧ busWrite 0x400D d s = put a

/-- O53. The length counters through the bus (47_apu.md R553): the channels' fourth registers, $4003, $4007, $400B and $400F
(R573, R576, R579); the $4015 write, with the forced lengths and the DMC's sample start (R584, R602), and the $4015 read
(R586). That a fourth register's last clauses happen for a disabled channel too is the model's choice (log entry 18). -/
def Obligations.ApuControlRegisters : Prop :=
  ∀ (s : State) (d : Byte), let a := s.apu
    let len := [10, 254, 20, 2, 40, 4, 80, 6, 160, 8, 60, 10, 14, 12, 26, 14, 12, 16, 24, 18, 48, 20, 96, 22, 192, 24, 72, 26, 16,
      28, 32, 30].getD (d.toNat / 8) (0 : Byte)
    let high := fun (p : BitVec 11) => (p &&& 0x0FF#11) ||| ((d.setWidth 11 &&& 7#11) <<< 8)
    let sq3 := fun (q : Square) => { q with
      period := high q.period, length := if q.enabled then len else q.length, seq := 0, env := { q.env with start := true } }
    let put := fun (b : Apu) => (Res.ok () { s with apu := b } : Res Unit)
    busWrite 0x4003 d s = put { a with sq1 := sq3 a.sq1 } ∧ busWrite 0x4007 d s = put { a with sq2 := sq3 a.sq2 } ∧
    busWrite 0x400B d s = put { a with tri := { a.tri with
      period := high a.tri.period, length := if a.tri.enabled then len else a.tri.length, linReload := true } } ∧
    busWrite 0x400F d s = put { a with noise := { a.noise with
      length := if a.noise.enabled then len else a.noise.length, env := { a.noise.env with start := true } } } ∧
    busWrite 0x4015 d s = put { a with
      sq1 := { a.sq1 with enabled := d.getLsbD 0, length := if d.getLsbD 0 then a.sq1.length else 0 }
      sq2 := { a.sq2 with enabled := d.getLsbD 1, length := if d.getLsbD 1 then a.sq2.length else 0 }
      tri := { a.tri with enabled := d.getLsbD 2, length := if d.getLsbD 2 then a.tri.length else 0 }
      noise := { a.noise with enabled := d.getLsbD 3, length := if d.getLsbD 3 then a.noise.length else 0 }
      dmc :=
        if d.getLsbD 4 = false then { a.dmc with remaining := 0 }
        else if a.dmc.remaining = 0 then
          { a.dmc with
            curAddr := 0xC000 + 64 * a.dmc.addrReg.setWidth 16
            remaining := 16 * a.dmc.lenReg.setWidth 12 + 1 }
        else a.dmc } ∧
    busRead 0x4015 s = .ok (0#2 ++ BitVec.ofBool ((Config.freeByte s.draws).getLsbD 0) ++
      BitVec.ofBool (decide (a.dmc.remaining.toNat > 0)) ++ BitVec.ofBool (decide (a.noise.length.toNat > 0)) ++
      BitVec.ofBool (decide (a.tri.length.toNat > 0)) ++ BitVec.ofBool (decide (a.sq2.length.toNat > 0)) ++
      BitVec.ofBool (decide (a.sq1.length.toNat > 0))) { s with draws := s.draws + 1 }

/-- O54. The frame sequencer (47_apu.md R560 to R564): n − 1 ticks count up, the n-th runs the step's events, quarter frame
first, and moves to the next step of the mode; a $4017 write restarts it, in 5-step mode with both events at once (R585); a
quarter frame clocks the three envelopes (R550) and the linear counter (R556), a half frame the four length counters (R552)
and the two sweeps (R547, R548), and neither changes anything else. -/
def Obligations.FrameSequencerTick : Prop :=
  (∀ (n : Nat) (a : Apu),
    (a.fs.counter + 1 < n → a.frameTick n = { a with fs := { a.fs with counter := a.fs.counter + 1 } }) ∧
    (n ≤ a.fs.counter + 1 → a.fs.mode = false → a.fs.step ≤ 3 →
      let b := if a.fs.step = 1 ∨ a.fs.step = 3 then a.quarterFrame.halfFrame else a.quarterFrame
      a.frameTick n = { b with fs := { a.fs with counter := 0, step := if a.fs.step = 3 then 0 else a.fs.step + 1 } }) ∧
    (n ≤ a.fs.counter + 1 → a.fs.mode = true → a.fs.step ≤ 4 →
      let b := if a.fs.step = 1 ∨ a.fs.step = 4 then a.quarterFrame.halfFrame
        else if a.fs.step = 3 then a else a.quarterFrame
      a.frameTick n = { b with fs := { a.fs with counter := 0, step := if a.fs.step = 4 then 0 else a.fs.step + 1 } })) ∧
  (∀ (s : State) (d : Byte),
    let b := { s.apu with fs := { mode := d.getLsbD 7, irqInhibit := d.getLsbD 6, counter := 0, step := 0 } }
    busWrite 0x4017 d s = .ok () { s with apu := if d.getLsbD 7 then b.quarterFrame.halfFrame else b }) ∧
  (∀ a : Apu,
    let env := fun (e : Envelope) =>
      if e.start then { e with start := false, decay := 15, div := e.vol }
      else if e.div.toNat = 0 then
        { e with div := e.vol, decay := if 0 < e.decay.toNat then e.decay - 1 else if e.halt then 15 else 0 }
      else { e with div := e.div - 1 }
    a.quarterFrame = { a with
      sq1 := { a.sq1 with env := env a.sq1.env }
      sq2 := { a.sq2 with env := env a.sq2.env }
      noise := { a.noise with env := env a.noise.env }
      tri := { a.tri with
        linear := if a.tri.linReload then a.tri.linReloadVal else a.tri.linear - if 0 < a.tri.linear.toNat then 1 else 0
        linReload := a.tri.linReload && a.tri.control } }) ∧
  (∀ a : Apu,
    let len := fun (halted : Bool) (n : Byte) => if halted = false ∧ 0 < n.toNat then n - 1 else n
    let target := fun (k : Int) (q : Square) =>
      if q.swNeg then (q.period.toNat : Int) - (q.period.toNat >>> q.swShift.toNat : Nat) - k
      else (q.period.toNat : Int) + (q.period.toNat >>> q.swShift.toNat : Nat)
    let muted := fun (k : Int) (q : Square) => decide (q.period.toNat < 8 ∨ target k q > 0x7FF)
    let sweep := fun (k : Int) (q : Square) => { q with
      length := len q.env.halt q.length
      period :=
        if q.swDiv.toNat = 0 ∧ q.swEn = true ∧ 0 < q.swShift.toNat ∧ muted k q = false then BitVec.ofInt 11 (target k q)
        else q.period
      swDiv := if q.swDiv.toNat = 0 ∨ q.swReload = true then q.swPeriod else q.swDiv - 1
      swReload := false }
    a.halfFrame = { a with
      sq1 := sweep 1 a.sq1
      sq2 := sweep 0 a.sq2
      tri := { a.tri with length := len a.tri.control a.tri.length }
      noise := { a.noise with length := len a.noise.env.halt a.noise.length } })

/-- O55. An APU cycle. The DMC's DMA fetch (47_apu.md R603, R604; 20_memory.md R123): with the buffer empty and bytes left, one
read through the CPU bus and four pending cycles, the address moved on with 0xFFFF wrapping to 0x8000, and a looping sample
started again at its end; otherwise nothing. The timers (R545, R555, R558, R600): k clocks of one that holds at least k count
it down, and the clock after it reaches 0 reloads it and steps its channel. The DMC's output unit (R601). Which timers one
cycle clocks (R540). -/
def Obligations.DmcFetch : Prop :=
  (∀ (s s1 : State) (b : Byte), s.apu.dmc.bufEmpty = true → s.apu.dmc.remaining ≠ 0 →
    busRead s.apu.dmc.curAddr s = .ok b s1 → let m := s.apu.dmc
    let next := { m with
      buffer := b, bufEmpty := false, remaining := m.remaining - 1
      curAddr := if m.curAddr = 0xFFFF then 0x8000 else m.curAddr + 1 }
    dmcFetchCheck s = .ok () { s1 with
      emu := { s.emu with pendingCycles := s.emu.pendingCycles + 4 }
      apu := { s.apu with dmc :=
        if m.remaining = 1 ∧ m.loop = true then
          { next with
            curAddr := 0xC000 + 64 * m.addrReg.setWidth 16
            remaining := 16 * m.lenReg.setWidth 12 + 1 }
        else next } }) ∧
  (∀ s : State, (s.apu.dmc.bufEmpty = false ∨ s.apu.dmc.remaining = 0) → dmcFetchCheck s = .ok () s) ∧
  (∀ (q : Square) (k : Nat), k ≤ q.timer.toNat →
    Nat.repeat Square.clockTimer k q = { q with timer := q.timer - BitVec.ofNat 11 k } ∧
    Nat.repeat Square.clockTimer (q.timer.toNat + 1) q = { q with timer := q.period, seq := q.seq + 1 }) ∧
  (∀ (c : Triangle) (k : Nat), k ≤ c.timer.toNat →
    Nat.repeat Triangle.clockTimer k c = { c with timer := c.timer - BitVec.ofNat 11 k } ∧
    Nat.repeat Triangle.clockTimer (c.timer.toNat + 1) c = { c with
      timer := c.period
      seq := if 0 < c.length.toNat ∧ 0 < c.linear.toNat then c.seq + 1 else c.seq }) ∧
  (∀ (c : Noise) (k : Nat), k ≤ c.timer.toNat →
    let period := [4, 8, 16, 32, 64, 96, 128, 160, 202, 254, 380, 508, 762, 1016, 2034, 4068].getD c.periodIdx.toNat 0
    let fb := c.shift.getLsbD 0 ^^ c.shift.getLsbD (if c.mode then 6 else 1)
    Nat.repeat Noise.clockTimer k c = { c with timer := c.timer - BitVec.ofNat 12 k } ∧
    Nat.repeat Noise.clockTimer (c.timer.toNat + 1) c = { c with
      timer := BitVec.ofNat 12 (period / 2 - 1)
      shift := (c.shift >>> 1) ||| ((BitVec.ofBool fb).setWidth 15 <<< 14) }) ∧
  (∀ (c : Dmc) (k : Nat), k ≤ c.timer.toNat →
    let rate := [428, 380, 340, 320, 286, 254, 226, 214, 190, 160, 142, 128, 106, 84, 72, 54].getD c.rateIdx.toNat 0
    Nat.repeat Dmc.clockTimer k c = { c with timer := c.timer - BitVec.ofNat 9 k } ∧
    Nat.repeat Dmc.clockTimer (c.timer.toNat + 1) c = Dmc.outputClock { c with timer := BitVec.ofNat 9 (rate - 1) }) ∧
  (∀ c : Dmc,
    let level :=
      if c.silence then c.level
      else if c.shift.getLsbD 0 then (if c.level.toNat ≤ 125 then c.level + 2 else c.level)
      else if 2 ≤ c.level.toNat then c.level - 2 else c.level
    (c.bitsLeft ≠ 1 → c.outputClock = { c with level := level, shift := c.shift >>> 1, bitsLeft := c.bitsLeft - 1 }) ∧
    (c.bitsLeft = 1 → c.bufEmpty = true →
      c.outputClock = { c with level := level, shift := c.shift >>> 1, bitsLeft := 8, silence := true }) ∧
    (c.bitsLeft = 1 → c.bufEmpty = false →
      c.outputClock = { c with level := level, shift := c.buffer, bitsLeft := 8, silence := false, bufEmpty := true })) ∧
  (∀ (n : Nat) (a : Apu), let b := a.frameTick n
    let odd := decide (a.cycle % 2 = 1)
    a.tick n = { b with
      tri := b.tri.clockTimer
      dmc := b.dmc.clockTimer
      sq1 := if odd then b.sq1.clockTimer else b.sq1
      sq2 := if odd then b.sq2.clockTimer else b.sq2
      noise := if odd then b.noise.clockTimer else b.noise
      cycle := a.cycle + 1 })

/-! ## Interrupts, reset and the whole machine -/

/-- O56. Taking an interrupt (60_exceptions.md R702, R703; 10_state.md R36): the three pushed bytes, every other byte of work RAM
as before, the flags, the PC from the vector, the pending cycles, and nothing else changed; and a return from it restores PC, SP and the flags and clears in_nmi (R710). -/
def Obligations.InterruptEntryAndReturn : Prop :=
  ∀ (s : State) (k : IntKind) (ret : Word), s.Inv → let t := interrupt k ret s
    let vector := match k with | .nmi => 0xFFFA | .reset => 0xFFFC | .irq => 0xFFFE | .brk => 0xFFFE
    let prg := fun a => Memory.read s.cart.prg ((a - 0x8000) % s.cart.prgSize)
    (Memory.read t.wram (0x100 + s.cpu.sp.toNat) = ret.extractLsb' 8 8 ∧
      Memory.read t.wram (0x100 + (s.cpu.sp - 1).toNat) = ret.extractLsb' 0 8 ∧
      Memory.read t.wram (0x100 + (s.cpu.sp - 2).toNat) =
        BitVec.ofBool s.cpu.n ++ BitVec.ofBool s.cpu.v ++ 1#1 ++ BitVec.ofBool (k == .brk) ++ BitVec.ofBool s.cpu.d ++
          BitVec.ofBool s.cpu.i ++ BitVec.ofBool s.cpu.z ++ BitVec.ofBool s.cpu.c) ∧
    (t.cpu = { s.cpu with
      sp := s.cpu.sp - 3, i := true, inNmi := s.cpu.inNmi || k == .nmi, pc := prg (vector + 1) ++ prg vector }) ∧
    (t = { s with
      cpu := t.cpu
      wram := t.wram
      emu := { s.emu with
        pendingCycles := s.emu.pendingCycles + if k = .brk then 0 else s.params.intEntryCycles } }) ∧
    (∀ k, k ≠ 0x100 + s.cpu.sp.toNat → k ≠ 0x100 + (s.cpu.sp - 1).toNat → k ≠ 0x100 + (s.cpu.sp - 2).toNat →
      Memory.read t.wram k = Memory.read s.wram k) ∧
    (returnFromInterrupt t).cpu = { s.cpu with pc := ret, inNmi := false }

/-- O57. The state after the power-on RESET (70_reset_and_hazards.md R750, R751; 10_state.md R91), every value written out, for every launch record, cassette and open
parameter; the host call that starts the machine gives it for the cassette built from the buffer, or the buffer's fault
(49_system_step.md R681, R687); and `State.reset` is the one of the launch record and cassette that log entries 1 and 2 choose. -/
def Obligations.PowerOnReset : Prop :=
  (∀ (p : Params) (l : Launch) (c : Cart), let t := start p l c
    let prg := fun a => Memory.read c.prg ((a - 0x8000) % c.prgSize)
    t.cpu = { a := l.a, x := l.x, y := l.y, sp := l.sp - 3, pc := prg 0xFFFD ++ prg 0xFFFC, n := l.n, v := l.v, d := l.d,
              i := true, z := l.z, c := l.c, inNmi := false } ∧
    t.emu = { totalCycles := 0, instrCount := 0, pendingCycles := p.intEntryCycles } ∧
    t.prgRam = l.prgRam ∧ t.bus = { dmaPending := false, dmaPage := 0 } ∧
    (∀ k, k ≠ 0x100 + l.sp.toNat → k ≠ 0x100 + (l.sp - 1).toNat → k ≠ 0x100 + (l.sp - 2).toNat →
      Memory.read t.wram k = Memory.read l.wram k) ∧
    (Memory.wf l.wram = true →
      Memory.read t.wram (0x100 + l.sp.toNat) = l.pc.extractLsb' 8 8 ∧
      Memory.read t.wram (0x100 + (l.sp - 1).toNat) = l.pc.extractLsb' 0 8 ∧
      Memory.read t.wram (0x100 + (l.sp - 2).toNat) =
        BitVec.ofBool l.n ++ BitVec.ofBool l.v ++ 0b10#2 ++ BitVec.ofBool l.d ++ BitVec.ofBool l.i ++ BitVec.ofBool l.z ++
          BitVec.ofBool l.c) ∧
    t.ppu = { ctrl := 0, mask := 0, vblank := false, s0hit := false, oamaddr := 0, v := 0, t := 0, x := 0, w := false,
              rdbuf := 0, lines := 0, dots := 0, fx := 0, color := l.color, bgt := l.bgt, oam := l.oam, nt := l.nt,
              pal := l.pal } ∧
    (let env : Envelope := { halt := false, const := false, vol := 0, start := false, div := 0, decay := 0 }
     let sq : Square :=
       { duty := 0, env := env, swEn := false, swPeriod := 0, swNeg := false, swShift := 0, period := 0, timer := 0, seq := 0,
         length := 0, swReload := false, swDiv := 0, enabled := false }
     t.apu =
       { sq1 := sq
         sq2 := sq
         tri := { control := false, linReloadVal := 0, period := 0, timer := 0, seq := 0, length := 0, linear := 0,
                  linReload := false, enabled := false }
         noise := { env := env, mode := false, periodIdx := 0, timer := 0, shift := 1, length := 0, enabled := false }
         dmc := { irqEn := false, loop := false, rateIdx := 0, level := 0, addrReg := 0, lenReg := 0, curAddr := 0,
                  remaining := 0, buffer := 0, bufEmpty := true, shift := 0, bitsLeft := 8, silence := true, timer := 0 }
         fs := { mode := false, irqInhibit := false, counter := 0, step := 0 }
         cycle := 0 }) ∧
    t.ctl = { pad0 := { buttons := 0, shift := 0, index := 0 }, pad1 := { buttons := 0, shift := 0, index := 0 },
              strobe := false } ∧
    t.cart = c ∧ t.params = p) ∧
  (∀ (p : Params) (l : Launch) (buffer : List Byte),
    (∀ c, Cart.ofImage buffer = .ok c → initializeFrom p l buffer = .ok (start p l c)) ∧
    (∀ f, Cart.ofImage buffer = .error f → initializeFrom p l buffer = .error f)) ∧
  State.reset = start Params.atReset Launch.zero Cart.blank ∧ State.reset.Inv

/-- O58. The invariant of 10_state.md R92 is kept by every step, from every state that meets it. -/
def Obligations.StepKeepsInvariant : Prop :=
  ∀ s t : State, s.Inv → step s = .next t → t.Inv

/-- O59. What a step counts and what it cannot do (49_system_step.md R670, R672, R675; 47_apu.md R541; 48_controllers_cassette.md
R634; 60_exceptions.md R706): one instruction, at least two cycles and every pending one; the PPU three dots a cycle; the
buttons and the parameters untouched; in_nmi set only with PPUCTRL bit 7. -/
def Obligations.StepAccounts : Prop :=
  ∀ s t : State, s.Inv → step s = .next t →
    (∃ c, 2 + s.emu.pendingCycles ≤ c ∧ t.emu.totalCycles = s.emu.totalCycles + c ∧ t.apu.cycle = s.apu.cycle + c ∧
      t.ppu.position = (s.ppu.position + 3 * c) % 89342) ∧
    t.emu.instrCount = s.emu.instrCount + 1 ∧
    t.ctl.pad0.buttons = s.ctl.pad0.buttons ∧ t.ctl.pad1.buttons = s.ctl.pad1.buttons ∧ t.params = s.params ∧
    t.cart.prgBanks = s.cart.prgBanks ∧ t.cart.chrBanks = s.cart.chrBanks ∧ t.cart.mirroring = s.cart.mirroring ∧
    (t.cpu.inNmi = true → s.cpu.inNmi = true ∨ t.ppu.ctrl.getLsbD 7 = true)

/-- O60. A frame completes (49_system_step.md R674): from every state that meets the invariant, 14891 steps are enough for one
to complete a frame, unless one of them faults; and the state it answers is that of the step that completed the frame. -/
def Obligations.FrameCompletes : Prop :=
  ∀ s : State, s.Inv → ∃ o, stepFrame 14891 s = some o ∧ (∀ t, o = .next t → t.frameDone = true) ∧ ∀ r, o ≠ .refused r
end

