-- ==== Sys2Proof/Laws/Memory.lean ====
section
/-! SUPPORT. The laws of the sparse stores: a read after a write, the canonical form and the size kept by a write, and
the canonical form of the stores of `State.reset`. -/

namespace Sys2Proof.Machine

variable {α : Type} [DecidableEq α] {d : α}

/-! ## The canonical form -/

theorem Cells.wfFrom_mono {m : Cells α} {lo lo' : Nat} (h : lo' ≤ lo) (w : Cells.wfFrom d lo m = true) :
    Cells.wfFrom d lo' m = true := by
  cases m with
  | nil => rfl
  | cons e m =>
    simp only [Cells.wfFrom, Bool.and_eq_true, decide_eq_true_eq] at w ⊢
    exact ⟨⟨by omega, w.1.2⟩, w.2⟩

/-- Below its first index a canonical store reads as unlisted. -/
theorem Cells.read_below {m : Cells α} {lo a : Nat} (w : Cells.wfFrom d lo m = true) (h : a < lo) :
    Cells.read d m a = d := by
  induction m generalizing lo with
  | nil => rfl
  | cons e m ih =>
    simp only [Cells.wfFrom, Bool.and_eq_true, decide_eq_true_eq] at w
    have hne : e.1 ≠ a := by omega
    simp only [Cells.read, hne, if_false]
    exact ih w.2 (by omega)

theorem Cells.wfFrom_write {m : Cells α} {lo a : Nat} {v : α} (w : Cells.wfFrom d lo m = true) (h : lo ≤ a) :
    Cells.wfFrom d lo (Cells.write d m a v) = true := by
  induction m generalizing lo with
  | nil =>
    simp only [Cells.write]
    split
    · rfl
    · simp_all [Cells.wfFrom]
  | cons e m ih =>
    have w' := w
    simp only [Cells.wfFrom, Bool.and_eq_true, decide_eq_true_eq] at w
    obtain ⟨⟨hlo, hne⟩, wm⟩ := w
    simp only [Cells.write]
    split
    · rename_i hlt
      split
      · exact w'
      · rename_i hv
        simp only [Cells.wfFrom, Bool.and_eq_true, decide_eq_true_eq]
        exact ⟨⟨h, hv⟩, ⟨by omega, hne⟩, wm⟩
    · split
      · rename_i hnlt heq
        split
        · exact Cells.wfFrom_mono (by omega) wm
        · rename_i hv
          simp only [Cells.wfFrom, Bool.and_eq_true, decide_eq_true_eq]
          exact ⟨⟨h, hv⟩, heq ▸ wm⟩
      · simp only [Cells.wfFrom, Bool.and_eq_true, decide_eq_true_eq]
        exact ⟨⟨hlo, hne⟩, ih wm (by omega)⟩

/-- A write keeps the canonical form. -/
theorem Cells.wf_write {m : Cells α} (a : Nat) (v : α) (w : Cells.wf d m = true) :
    Cells.wf d (Cells.write d m a v) = true := Cells.wfFrom_write w (Nat.zero_le a)

theorem Cells.below_write {m : Cells α} {n a : Nat} (v : α) (h : a < n) (b : Cells.below n m = true) :
    Cells.below n (Cells.write d m a v) = true := by
  induction m with
  | nil =>
    simp only [Cells.write]
    split
    · rfl
    · simp [Cells.below, h]
  | cons e m ih =>
    simp only [Cells.below, List.all_cons, Bool.and_eq_true, decide_eq_true_eq] at b ih ⊢
    simp only [Cells.write]
    split
    · split
      · simp [b.1, b.2]
      · simp [h, b.1, b.2]
    · split
      · split
        · exact b.2
        · simp [h, b.2]
      · simp only [List.all_cons, Bool.and_eq_true, decide_eq_true_eq]
        exact ⟨b.1, ih b.2⟩

/-- A write inside its size keeps a store canonical and within its size. -/
theorem Cells.sized_write {m : Cells α} {n a : Nat} (v : α) (h : a < n) (s : Cells.Sized d n m) :
    Cells.Sized d n (Cells.write d m a v) := ⟨Cells.wf_write a v s.1, Cells.below_write v h s.2⟩

theorem Cells.sized_nil (n : Nat) : Cells.Sized d n [] := ⟨rfl, rfl⟩

/-! ## A read after a write -/

/-- A write leaves every other index alone. -/
theorem Cells.read_write_other {m : Cells α} {a b : Nat} (v : α) (h : b ≠ a) :
    Cells.read d (Cells.write d m a v) b = Cells.read d m b := by
  induction m with
  | nil =>
    simp only [Cells.write]
    split
    · rfl
    · simp [Cells.read, Ne.symm h]
  | cons e m ih =>
    simp only [Cells.write]
    split
    · split
      · rfl
      · simp [Cells.read, Ne.symm h]
    · split
      · rename_i heq
        have hne : e.1 ≠ b := by rw [← heq]; exact Ne.symm h
        split <;> simp [Cells.read, Ne.symm h, hne]
      · simp only [Cells.read]
        split
        · rfl
        · exact ih

theorem Cells.read_write_same_from {m : Cells α} {lo : Nat} (a : Nat) (v : α) (w : Cells.wfFrom d lo m = true) :
    Cells.read d (Cells.write d m a v) a = v := by
  induction m generalizing lo with
  | nil =>
    simp only [Cells.write]
    split
    · rename_i hv; exact hv.symm
    · simp [Cells.read]
  | cons e m ih =>
    have w' := w
    simp only [Cells.wfFrom, Bool.and_eq_true, decide_eq_true_eq] at w
    obtain ⟨⟨hlo, hne⟩, wm⟩ := w
    simp only [Cells.write]
    split
    · rename_i hlt
      split
      · rename_i hv
        rw [hv]
        have w'' : Cells.wfFrom d e.1 ((e.1, e.2) :: m) = true := by
          simp only [Cells.wfFrom, Bool.and_eq_true, decide_eq_true_eq]
          exact ⟨⟨le_refl _, hne⟩, wm⟩
        exact Cells.read_below w'' hlt
      · simp [Cells.read]
    · split
      · rename_i heq
        split
        · rename_i hv
          rw [hv]
          exact Cells.read_below wm (by omega)
        · simp [Cells.read]
      · rename_i hne'
        have : e.1 ≠ a := fun h => hne' h.symm
        simp only [Cells.read, this, if_false]
        exact ih wm

/-- In a canonical store a write is read back. -/
theorem Cells.read_write_same {m : Cells α} (a : Nat) (v : α) (w : Cells.wf d m = true) :
    Cells.read d (Cells.write d m a v) a = v := Cells.read_write_same_from a v w

/-! ## Stores of bytes -/

theorem Memory.wf_write {m : Memory} (a : Nat) (b : Byte) (w : Memory.wf m = true) :
    Memory.wf (Memory.write m a b) = true := Cells.wf_write a b w

theorem Memory.sized_write {m : Memory} {n a : Nat} (b : Byte) (h : a < n) (s : Cells.Sized Memory.unlisted n m) :
    Cells.Sized Memory.unlisted n (Memory.write m a b) := Cells.sized_write b h s

theorem Memory.read_write_other {m : Memory} {a b : Nat} (v : Byte) (h : b ≠ a) :
    Memory.read (Memory.write m a v) b = Memory.read m b := Cells.read_write_other v h

theorem Memory.read_write_same {m : Memory} (a : Nat) (b : Byte) (w : Memory.wf m = true) :
    Memory.read (Memory.write m a b) a = b := Cells.read_write_same a b w

theorem Memory.wfFrom_ofBytes (k : Nat) (l : List Byte) :
    Cells.wfFrom Memory.unlisted k (Memory.ofBytes k l) = true := by
  induction l generalizing k with
  | nil => rfl
  | cons b l ih =>
    simp only [Memory.ofBytes]
    split
    · exact Cells.wfFrom_mono (Nat.le_succ k) (ih (k + 1))
    · rename_i hb
      simp only [Cells.wfFrom, Bool.and_eq_true, decide_eq_true_eq]
      exact ⟨⟨le_refl _, hb⟩, ih (k + 1)⟩

/-- A store built from bytes is canonical. -/
theorem Memory.wf_ofBytes (l : List Byte) : Memory.wf (Memory.ofBytes 0 l) = true := Memory.wfFrom_ofBytes 0 l

/-- A store built from bytes reads them back. -/
theorem Memory.read_ofBytes (k : Nat) (l : List Byte) (i : Nat) :
    Memory.read (Memory.ofBytes k l) (k + i) = l.getD i Memory.unlisted := by
  induction l generalizing k i with
  | nil => simp [Memory.ofBytes, Memory.read, Cells.read]
  | cons b l ih =>
    simp only [Memory.ofBytes]
    cases i with
    | zero =>
      split
      · rename_i hb
        rw [hb]
        exact Cells.read_below (Memory.wfFrom_ofBytes (k + 1) l) (by omega)
      · simp [Memory.read, Cells.read]
    | succ i =>
      have h := ih (k + 1) i
      rw [show k + 1 + i = k + (i + 1) by omega] at h
      split
      · simpa using h
      · have hne : k ≠ k + (i + 1) := by omega
        simp only [Memory.read, Cells.read, hne, if_false] at h ⊢
        simpa using h

/-! ## The stores of `State.reset` -/

theorem reset_wram_wf : Memory.wf State.reset.wram = true := by decide

theorem reset_prgRam_wf : Memory.wf State.reset.prgRam = true := by decide

theorem reset_cart_wf : Memory.wf State.reset.cart.prg = true ∧ Memory.wf State.reset.cart.chr = true := by decide

theorem reset_ppu_wf : Memory.wf State.reset.ppu.oam = true ∧ Memory.wf State.reset.ppu.nt = true ∧
    Cells.wf 0 State.reset.ppu.pal = true ∧ Cells.wf 0 State.reset.ppu.color = true ∧
    Cells.wf true State.reset.ppu.bgt = true := by decide

end Sys2Proof.Machine
end

