-- ==== Sys2Proof/Laws/State.lean ====
section
/-! SUPPORT. One lemma for each field of the state and each update of one component: the updated field holds the new
value, every other field the old one. -/

namespace Sys2Proof.Machine

variable (s : State)

/-! ## `State.mapCpu` -/

@[simp] theorem State.mapCpu_cpu (f : Cpu → Cpu) : (s.mapCpu f).cpu = f s.cpu := rfl
@[simp] theorem State.mapCpu_emu (f : Cpu → Cpu) : (s.mapCpu f).emu = s.emu := rfl
@[simp] theorem State.mapCpu_wram (f : Cpu → Cpu) : (s.mapCpu f).wram = s.wram := rfl
@[simp] theorem State.mapCpu_prgRam (f : Cpu → Cpu) : (s.mapCpu f).prgRam = s.prgRam := rfl
@[simp] theorem State.mapCpu_bus (f : Cpu → Cpu) : (s.mapCpu f).bus = s.bus := rfl
@[simp] theorem State.mapCpu_ppu (f : Cpu → Cpu) : (s.mapCpu f).ppu = s.ppu := rfl
@[simp] theorem State.mapCpu_apu (f : Cpu → Cpu) : (s.mapCpu f).apu = s.apu := rfl
@[simp] theorem State.mapCpu_ctl (f : Cpu → Cpu) : (s.mapCpu f).ctl = s.ctl := rfl
@[simp] theorem State.mapCpu_cart (f : Cpu → Cpu) : (s.mapCpu f).cart = s.cart := rfl
@[simp] theorem State.mapCpu_params (f : Cpu → Cpu) : (s.mapCpu f).params = s.params := rfl
@[simp] theorem State.mapCpu_draws (f : Cpu → Cpu) : (s.mapCpu f).draws = s.draws := rfl
@[simp] theorem State.mapCpu_insCycles (f : Cpu → Cpu) : (s.mapCpu f).insCycles = s.insCycles := rfl
@[simp] theorem State.mapCpu_frameDone (f : Cpu → Cpu) : (s.mapCpu f).frameDone = s.frameDone := rfl
@[simp] theorem State.mapCpu_sampleIn (f : Cpu → Cpu) : (s.mapCpu f).sampleIn = s.sampleIn := rfl
@[simp] theorem State.mapCpu_samples (f : Cpu → Cpu) : (s.mapCpu f).samples = s.samples := rfl

/-! ## `State.mapEmu` -/

@[simp] theorem State.mapEmu_cpu (f : Emu → Emu) : (s.mapEmu f).cpu = s.cpu := rfl
@[simp] theorem State.mapEmu_emu (f : Emu → Emu) : (s.mapEmu f).emu = f s.emu := rfl
@[simp] theorem State.mapEmu_wram (f : Emu → Emu) : (s.mapEmu f).wram = s.wram := rfl
@[simp] theorem State.mapEmu_prgRam (f : Emu → Emu) : (s.mapEmu f).prgRam = s.prgRam := rfl
@[simp] theorem State.mapEmu_bus (f : Emu → Emu) : (s.mapEmu f).bus = s.bus := rfl
@[simp] theorem State.mapEmu_ppu (f : Emu → Emu) : (s.mapEmu f).ppu = s.ppu := rfl
@[simp] theorem State.mapEmu_apu (f : Emu → Emu) : (s.mapEmu f).apu = s.apu := rfl
@[simp] theorem State.mapEmu_ctl (f : Emu → Emu) : (s.mapEmu f).ctl = s.ctl := rfl
@[simp] theorem State.mapEmu_cart (f : Emu → Emu) : (s.mapEmu f).cart = s.cart := rfl
@[simp] theorem State.mapEmu_params (f : Emu → Emu) : (s.mapEmu f).params = s.params := rfl
@[simp] theorem State.mapEmu_draws (f : Emu → Emu) : (s.mapEmu f).draws = s.draws := rfl
@[simp] theorem State.mapEmu_insCycles (f : Emu → Emu) : (s.mapEmu f).insCycles = s.insCycles := rfl
@[simp] theorem State.mapEmu_frameDone (f : Emu → Emu) : (s.mapEmu f).frameDone = s.frameDone := rfl
@[simp] theorem State.mapEmu_sampleIn (f : Emu → Emu) : (s.mapEmu f).sampleIn = s.sampleIn := rfl
@[simp] theorem State.mapEmu_samples (f : Emu → Emu) : (s.mapEmu f).samples = s.samples := rfl

/-! ## `State.mapBus` -/

@[simp] theorem State.mapBus_cpu (f : Bus → Bus) : (s.mapBus f).cpu = s.cpu := rfl
@[simp] theorem State.mapBus_emu (f : Bus → Bus) : (s.mapBus f).emu = s.emu := rfl
@[simp] theorem State.mapBus_wram (f : Bus → Bus) : (s.mapBus f).wram = s.wram := rfl
@[simp] theorem State.mapBus_prgRam (f : Bus → Bus) : (s.mapBus f).prgRam = s.prgRam := rfl
@[simp] theorem State.mapBus_bus (f : Bus → Bus) : (s.mapBus f).bus = f s.bus := rfl
@[simp] theorem State.mapBus_ppu (f : Bus → Bus) : (s.mapBus f).ppu = s.ppu := rfl
@[simp] theorem State.mapBus_apu (f : Bus → Bus) : (s.mapBus f).apu = s.apu := rfl
@[simp] theorem State.mapBus_ctl (f : Bus → Bus) : (s.mapBus f).ctl = s.ctl := rfl
@[simp] theorem State.mapBus_cart (f : Bus → Bus) : (s.mapBus f).cart = s.cart := rfl
@[simp] theorem State.mapBus_params (f : Bus → Bus) : (s.mapBus f).params = s.params := rfl
@[simp] theorem State.mapBus_draws (f : Bus → Bus) : (s.mapBus f).draws = s.draws := rfl
@[simp] theorem State.mapBus_insCycles (f : Bus → Bus) : (s.mapBus f).insCycles = s.insCycles := rfl
@[simp] theorem State.mapBus_frameDone (f : Bus → Bus) : (s.mapBus f).frameDone = s.frameDone := rfl
@[simp] theorem State.mapBus_sampleIn (f : Bus → Bus) : (s.mapBus f).sampleIn = s.sampleIn := rfl
@[simp] theorem State.mapBus_samples (f : Bus → Bus) : (s.mapBus f).samples = s.samples := rfl

/-! ## `State.mapPpu` -/

@[simp] theorem State.mapPpu_cpu (f : Ppu → Ppu) : (s.mapPpu f).cpu = s.cpu := rfl
@[simp] theorem State.mapPpu_emu (f : Ppu → Ppu) : (s.mapPpu f).emu = s.emu := rfl
@[simp] theorem State.mapPpu_wram (f : Ppu → Ppu) : (s.mapPpu f).wram = s.wram := rfl
@[simp] theorem State.mapPpu_prgRam (f : Ppu → Ppu) : (s.mapPpu f).prgRam = s.prgRam := rfl
@[simp] theorem State.mapPpu_bus (f : Ppu → Ppu) : (s.mapPpu f).bus = s.bus := rfl
@[simp] theorem State.mapPpu_ppu (f : Ppu → Ppu) : (s.mapPpu f).ppu = f s.ppu := rfl
@[simp] theorem State.mapPpu_apu (f : Ppu → Ppu) : (s.mapPpu f).apu = s.apu := rfl
@[simp] theorem State.mapPpu_ctl (f : Ppu → Ppu) : (s.mapPpu f).ctl = s.ctl := rfl
@[simp] theorem State.mapPpu_cart (f : Ppu → Ppu) : (s.mapPpu f).cart = s.cart := rfl
@[simp] theorem State.mapPpu_params (f : Ppu → Ppu) : (s.mapPpu f).params = s.params := rfl
@[simp] theorem State.mapPpu_draws (f : Ppu → Ppu) : (s.mapPpu f).draws = s.draws := rfl
@[simp] theorem State.mapPpu_insCycles (f : Ppu → Ppu) : (s.mapPpu f).insCycles = s.insCycles := rfl
@[simp] theorem State.mapPpu_frameDone (f : Ppu → Ppu) : (s.mapPpu f).frameDone = s.frameDone := rfl
@[simp] theorem State.mapPpu_sampleIn (f : Ppu → Ppu) : (s.mapPpu f).sampleIn = s.sampleIn := rfl
@[simp] theorem State.mapPpu_samples (f : Ppu → Ppu) : (s.mapPpu f).samples = s.samples := rfl

/-! ## `State.mapApu` -/

@[simp] theorem State.mapApu_cpu (f : Apu → Apu) : (s.mapApu f).cpu = s.cpu := rfl
@[simp] theorem State.mapApu_emu (f : Apu → Apu) : (s.mapApu f).emu = s.emu := rfl
@[simp] theorem State.mapApu_wram (f : Apu → Apu) : (s.mapApu f).wram = s.wram := rfl
@[simp] theorem State.mapApu_prgRam (f : Apu → Apu) : (s.mapApu f).prgRam = s.prgRam := rfl
@[simp] theorem State.mapApu_bus (f : Apu → Apu) : (s.mapApu f).bus = s.bus := rfl
@[simp] theorem State.mapApu_ppu (f : Apu → Apu) : (s.mapApu f).ppu = s.ppu := rfl
@[simp] theorem State.mapApu_apu (f : Apu → Apu) : (s.mapApu f).apu = f s.apu := rfl
@[simp] theorem State.mapApu_ctl (f : Apu → Apu) : (s.mapApu f).ctl = s.ctl := rfl
@[simp] theorem State.mapApu_cart (f : Apu → Apu) : (s.mapApu f).cart = s.cart := rfl
@[simp] theorem State.mapApu_params (f : Apu → Apu) : (s.mapApu f).params = s.params := rfl
@[simp] theorem State.mapApu_draws (f : Apu → Apu) : (s.mapApu f).draws = s.draws := rfl
@[simp] theorem State.mapApu_insCycles (f : Apu → Apu) : (s.mapApu f).insCycles = s.insCycles := rfl
@[simp] theorem State.mapApu_frameDone (f : Apu → Apu) : (s.mapApu f).frameDone = s.frameDone := rfl
@[simp] theorem State.mapApu_sampleIn (f : Apu → Apu) : (s.mapApu f).sampleIn = s.sampleIn := rfl
@[simp] theorem State.mapApu_samples (f : Apu → Apu) : (s.mapApu f).samples = s.samples := rfl

/-! ## `State.mapCtl` -/

@[simp] theorem State.mapCtl_cpu (f : Ctl → Ctl) : (s.mapCtl f).cpu = s.cpu := rfl
@[simp] theorem State.mapCtl_emu (f : Ctl → Ctl) : (s.mapCtl f).emu = s.emu := rfl
@[simp] theorem State.mapCtl_wram (f : Ctl → Ctl) : (s.mapCtl f).wram = s.wram := rfl
@[simp] theorem State.mapCtl_prgRam (f : Ctl → Ctl) : (s.mapCtl f).prgRam = s.prgRam := rfl
@[simp] theorem State.mapCtl_bus (f : Ctl → Ctl) : (s.mapCtl f).bus = s.bus := rfl
@[simp] theorem State.mapCtl_ppu (f : Ctl → Ctl) : (s.mapCtl f).ppu = s.ppu := rfl
@[simp] theorem State.mapCtl_apu (f : Ctl → Ctl) : (s.mapCtl f).apu = s.apu := rfl
@[simp] theorem State.mapCtl_ctl (f : Ctl → Ctl) : (s.mapCtl f).ctl = f s.ctl := rfl
@[simp] theorem State.mapCtl_cart (f : Ctl → Ctl) : (s.mapCtl f).cart = s.cart := rfl
@[simp] theorem State.mapCtl_params (f : Ctl → Ctl) : (s.mapCtl f).params = s.params := rfl
@[simp] theorem State.mapCtl_draws (f : Ctl → Ctl) : (s.mapCtl f).draws = s.draws := rfl
@[simp] theorem State.mapCtl_insCycles (f : Ctl → Ctl) : (s.mapCtl f).insCycles = s.insCycles := rfl
@[simp] theorem State.mapCtl_frameDone (f : Ctl → Ctl) : (s.mapCtl f).frameDone = s.frameDone := rfl
@[simp] theorem State.mapCtl_sampleIn (f : Ctl → Ctl) : (s.mapCtl f).sampleIn = s.sampleIn := rfl
@[simp] theorem State.mapCtl_samples (f : Ctl → Ctl) : (s.mapCtl f).samples = s.samples := rfl

/-! ## `State.mapCart` -/

@[simp] theorem State.mapCart_cpu (f : Cart → Cart) : (s.mapCart f).cpu = s.cpu := rfl
@[simp] theorem State.mapCart_emu (f : Cart → Cart) : (s.mapCart f).emu = s.emu := rfl
@[simp] theorem State.mapCart_wram (f : Cart → Cart) : (s.mapCart f).wram = s.wram := rfl
@[simp] theorem State.mapCart_prgRam (f : Cart → Cart) : (s.mapCart f).prgRam = s.prgRam := rfl
@[simp] theorem State.mapCart_bus (f : Cart → Cart) : (s.mapCart f).bus = s.bus := rfl
@[simp] theorem State.mapCart_ppu (f : Cart → Cart) : (s.mapCart f).ppu = s.ppu := rfl
@[simp] theorem State.mapCart_apu (f : Cart → Cart) : (s.mapCart f).apu = s.apu := rfl
@[simp] theorem State.mapCart_ctl (f : Cart → Cart) : (s.mapCart f).ctl = s.ctl := rfl
@[simp] theorem State.mapCart_cart (f : Cart → Cart) : (s.mapCart f).cart = f s.cart := rfl
@[simp] theorem State.mapCart_params (f : Cart → Cart) : (s.mapCart f).params = s.params := rfl
@[simp] theorem State.mapCart_draws (f : Cart → Cart) : (s.mapCart f).draws = s.draws := rfl
@[simp] theorem State.mapCart_insCycles (f : Cart → Cart) : (s.mapCart f).insCycles = s.insCycles := rfl
@[simp] theorem State.mapCart_frameDone (f : Cart → Cart) : (s.mapCart f).frameDone = s.frameDone := rfl
@[simp] theorem State.mapCart_sampleIn (f : Cart → Cart) : (s.mapCart f).sampleIn = s.sampleIn := rfl
@[simp] theorem State.mapCart_samples (f : Cart → Cart) : (s.mapCart f).samples = s.samples := rfl

/-! ## `State.mapWram` -/

@[simp] theorem State.mapWram_cpu (f : Memory → Memory) : (s.mapWram f).cpu = s.cpu := rfl
@[simp] theorem State.mapWram_emu (f : Memory → Memory) : (s.mapWram f).emu = s.emu := rfl
@[simp] theorem State.mapWram_wram (f : Memory → Memory) : (s.mapWram f).wram = f s.wram := rfl
@[simp] theorem State.mapWram_prgRam (f : Memory → Memory) : (s.mapWram f).prgRam = s.prgRam := rfl
@[simp] theorem State.mapWram_bus (f : Memory → Memory) : (s.mapWram f).bus = s.bus := rfl
@[simp] theorem State.mapWram_ppu (f : Memory → Memory) : (s.mapWram f).ppu = s.ppu := rfl
@[simp] theorem State.mapWram_apu (f : Memory → Memory) : (s.mapWram f).apu = s.apu := rfl
@[simp] theorem State.mapWram_ctl (f : Memory → Memory) : (s.mapWram f).ctl = s.ctl := rfl
@[simp] theorem State.mapWram_cart (f : Memory → Memory) : (s.mapWram f).cart = s.cart := rfl
@[simp] theorem State.mapWram_params (f : Memory → Memory) : (s.mapWram f).params = s.params := rfl
@[simp] theorem State.mapWram_draws (f : Memory → Memory) : (s.mapWram f).draws = s.draws := rfl
@[simp] theorem State.mapWram_insCycles (f : Memory → Memory) : (s.mapWram f).insCycles = s.insCycles := rfl
@[simp] theorem State.mapWram_frameDone (f : Memory → Memory) : (s.mapWram f).frameDone = s.frameDone := rfl
@[simp] theorem State.mapWram_sampleIn (f : Memory → Memory) : (s.mapWram f).sampleIn = s.sampleIn := rfl
@[simp] theorem State.mapWram_samples (f : Memory → Memory) : (s.mapWram f).samples = s.samples := rfl

/-! ## `State.mapPrgRam` -/

@[simp] theorem State.mapPrgRam_cpu (f : Memory → Memory) : (s.mapPrgRam f).cpu = s.cpu := rfl
@[simp] theorem State.mapPrgRam_emu (f : Memory → Memory) : (s.mapPrgRam f).emu = s.emu := rfl
@[simp] theorem State.mapPrgRam_wram (f : Memory → Memory) : (s.mapPrgRam f).wram = s.wram := rfl
@[simp] theorem State.mapPrgRam_prgRam (f : Memory → Memory) : (s.mapPrgRam f).prgRam = f s.prgRam := rfl
@[simp] theorem State.mapPrgRam_bus (f : Memory → Memory) : (s.mapPrgRam f).bus = s.bus := rfl
@[simp] theorem State.mapPrgRam_ppu (f : Memory → Memory) : (s.mapPrgRam f).ppu = s.ppu := rfl
@[simp] theorem State.mapPrgRam_apu (f : Memory → Memory) : (s.mapPrgRam f).apu = s.apu := rfl
@[simp] theorem State.mapPrgRam_ctl (f : Memory → Memory) : (s.mapPrgRam f).ctl = s.ctl := rfl
@[simp] theorem State.mapPrgRam_cart (f : Memory → Memory) : (s.mapPrgRam f).cart = s.cart := rfl
@[simp] theorem State.mapPrgRam_params (f : Memory → Memory) : (s.mapPrgRam f).params = s.params := rfl
@[simp] theorem State.mapPrgRam_draws (f : Memory → Memory) : (s.mapPrgRam f).draws = s.draws := rfl
@[simp] theorem State.mapPrgRam_insCycles (f : Memory → Memory) : (s.mapPrgRam f).insCycles = s.insCycles := rfl
@[simp] theorem State.mapPrgRam_frameDone (f : Memory → Memory) : (s.mapPrgRam f).frameDone = s.frameDone := rfl
@[simp] theorem State.mapPrgRam_sampleIn (f : Memory → Memory) : (s.mapPrgRam f).sampleIn = s.sampleIn := rfl
@[simp] theorem State.mapPrgRam_samples (f : Memory → Memory) : (s.mapPrgRam f).samples = s.samples := rfl

/-! ## `State.setInsCycles` -/

@[simp] theorem State.setInsCycles_cpu (n : Nat) : (s.setInsCycles n).cpu = s.cpu := rfl
@[simp] theorem State.setInsCycles_emu (n : Nat) : (s.setInsCycles n).emu = s.emu := rfl
@[simp] theorem State.setInsCycles_wram (n : Nat) : (s.setInsCycles n).wram = s.wram := rfl
@[simp] theorem State.setInsCycles_prgRam (n : Nat) : (s.setInsCycles n).prgRam = s.prgRam := rfl
@[simp] theorem State.setInsCycles_bus (n : Nat) : (s.setInsCycles n).bus = s.bus := rfl
@[simp] theorem State.setInsCycles_ppu (n : Nat) : (s.setInsCycles n).ppu = s.ppu := rfl
@[simp] theorem State.setInsCycles_apu (n : Nat) : (s.setInsCycles n).apu = s.apu := rfl
@[simp] theorem State.setInsCycles_ctl (n : Nat) : (s.setInsCycles n).ctl = s.ctl := rfl
@[simp] theorem State.setInsCycles_cart (n : Nat) : (s.setInsCycles n).cart = s.cart := rfl
@[simp] theorem State.setInsCycles_params (n : Nat) : (s.setInsCycles n).params = s.params := rfl
@[simp] theorem State.setInsCycles_draws (n : Nat) : (s.setInsCycles n).draws = s.draws := rfl
@[simp] theorem State.setInsCycles_insCycles (n : Nat) : (s.setInsCycles n).insCycles = n := rfl
@[simp] theorem State.setInsCycles_frameDone (n : Nat) : (s.setInsCycles n).frameDone = s.frameDone := rfl
@[simp] theorem State.setInsCycles_sampleIn (n : Nat) : (s.setInsCycles n).sampleIn = s.sampleIn := rfl
@[simp] theorem State.setInsCycles_samples (n : Nat) : (s.setInsCycles n).samples = s.samples := rfl

/-! ## `State.setSamples` -/

@[simp] theorem State.setSamples_cpu (l : List Sample) : (s.setSamples l).cpu = s.cpu := rfl
@[simp] theorem State.setSamples_emu (l : List Sample) : (s.setSamples l).emu = s.emu := rfl
@[simp] theorem State.setSamples_wram (l : List Sample) : (s.setSamples l).wram = s.wram := rfl
@[simp] theorem State.setSamples_prgRam (l : List Sample) : (s.setSamples l).prgRam = s.prgRam := rfl
@[simp] theorem State.setSamples_bus (l : List Sample) : (s.setSamples l).bus = s.bus := rfl
@[simp] theorem State.setSamples_ppu (l : List Sample) : (s.setSamples l).ppu = s.ppu := rfl
@[simp] theorem State.setSamples_apu (l : List Sample) : (s.setSamples l).apu = s.apu := rfl
@[simp] theorem State.setSamples_ctl (l : List Sample) : (s.setSamples l).ctl = s.ctl := rfl
@[simp] theorem State.setSamples_cart (l : List Sample) : (s.setSamples l).cart = s.cart := rfl
@[simp] theorem State.setSamples_params (l : List Sample) : (s.setSamples l).params = s.params := rfl
@[simp] theorem State.setSamples_draws (l : List Sample) : (s.setSamples l).draws = s.draws := rfl
@[simp] theorem State.setSamples_insCycles (l : List Sample) : (s.setSamples l).insCycles = s.insCycles := rfl
@[simp] theorem State.setSamples_frameDone (l : List Sample) : (s.setSamples l).frameDone = s.frameDone := rfl
@[simp] theorem State.setSamples_sampleIn (l : List Sample) : (s.setSamples l).sampleIn = s.sampleIn := rfl
@[simp] theorem State.setSamples_samples (l : List Sample) : (s.setSamples l).samples = l := rfl

/-! ## `State.addPending` -/

@[simp] theorem State.addPending_cpu (n : Nat) : (s.addPending n).cpu = s.cpu := rfl
@[simp] theorem State.addPending_emu (n : Nat) : (s.addPending n).emu = { s.emu with pendingCycles := s.emu.pendingCycles + n } := rfl
@[simp] theorem State.addPending_wram (n : Nat) : (s.addPending n).wram = s.wram := rfl
@[simp] theorem State.addPending_prgRam (n : Nat) : (s.addPending n).prgRam = s.prgRam := rfl
@[simp] theorem State.addPending_bus (n : Nat) : (s.addPending n).bus = s.bus := rfl
@[simp] theorem State.addPending_ppu (n : Nat) : (s.addPending n).ppu = s.ppu := rfl
@[simp] theorem State.addPending_apu (n : Nat) : (s.addPending n).apu = s.apu := rfl
@[simp] theorem State.addPending_ctl (n : Nat) : (s.addPending n).ctl = s.ctl := rfl
@[simp] theorem State.addPending_cart (n : Nat) : (s.addPending n).cart = s.cart := rfl
@[simp] theorem State.addPending_params (n : Nat) : (s.addPending n).params = s.params := rfl
@[simp] theorem State.addPending_draws (n : Nat) : (s.addPending n).draws = s.draws := rfl
@[simp] theorem State.addPending_insCycles (n : Nat) : (s.addPending n).insCycles = s.insCycles := rfl
@[simp] theorem State.addPending_frameDone (n : Nat) : (s.addPending n).frameDone = s.frameDone := rfl
@[simp] theorem State.addPending_sampleIn (n : Nat) : (s.addPending n).sampleIn = s.sampleIn := rfl
@[simp] theorem State.addPending_samples (n : Nat) : (s.addPending n).samples = s.samples := rfl

/-! ## `State.afterDraw` -/

@[simp] theorem State.afterDraw_cpu : s.afterDraw.cpu = s.cpu := rfl
@[simp] theorem State.afterDraw_emu : s.afterDraw.emu = s.emu := rfl
@[simp] theorem State.afterDraw_wram : s.afterDraw.wram = s.wram := rfl
@[simp] theorem State.afterDraw_prgRam : s.afterDraw.prgRam = s.prgRam := rfl
@[simp] theorem State.afterDraw_bus : s.afterDraw.bus = s.bus := rfl
@[simp] theorem State.afterDraw_ppu : s.afterDraw.ppu = s.ppu := rfl
@[simp] theorem State.afterDraw_apu : s.afterDraw.apu = s.apu := rfl
@[simp] theorem State.afterDraw_ctl : s.afterDraw.ctl = s.ctl := rfl
@[simp] theorem State.afterDraw_cart : s.afterDraw.cart = s.cart := rfl
@[simp] theorem State.afterDraw_params : s.afterDraw.params = s.params := rfl
@[simp] theorem State.afterDraw_draws : s.afterDraw.draws = s.draws + 1 := rfl
@[simp] theorem State.afterDraw_insCycles : s.afterDraw.insCycles = s.insCycles := rfl
@[simp] theorem State.afterDraw_frameDone : s.afterDraw.frameDone = s.frameDone := rfl
@[simp] theorem State.afterDraw_sampleIn : s.afterDraw.sampleIn = s.sampleIn := rfl
@[simp] theorem State.afterDraw_samples : s.afterDraw.samples = s.samples := rfl

/-! ## `wramWrite` -/

@[simp] theorem wramWrite_cpu (a : Word) (b : Byte) : (wramWrite a b s).cpu = s.cpu := rfl
@[simp] theorem wramWrite_emu (a : Word) (b : Byte) : (wramWrite a b s).emu = s.emu := rfl
@[simp] theorem wramWrite_wram (a : Word) (b : Byte) : (wramWrite a b s).wram = Memory.write s.wram (wramIndex a) b := rfl
@[simp] theorem wramWrite_prgRam (a : Word) (b : Byte) : (wramWrite a b s).prgRam = s.prgRam := rfl
@[simp] theorem wramWrite_bus (a : Word) (b : Byte) : (wramWrite a b s).bus = s.bus := rfl
@[simp] theorem wramWrite_ppu (a : Word) (b : Byte) : (wramWrite a b s).ppu = s.ppu := rfl
@[simp] theorem wramWrite_apu (a : Word) (b : Byte) : (wramWrite a b s).apu = s.apu := rfl
@[simp] theorem wramWrite_ctl (a : Word) (b : Byte) : (wramWrite a b s).ctl = s.ctl := rfl
@[simp] theorem wramWrite_cart (a : Word) (b : Byte) : (wramWrite a b s).cart = s.cart := rfl
@[simp] theorem wramWrite_params (a : Word) (b : Byte) : (wramWrite a b s).params = s.params := rfl
@[simp] theorem wramWrite_draws (a : Word) (b : Byte) : (wramWrite a b s).draws = s.draws := rfl
@[simp] theorem wramWrite_insCycles (a : Word) (b : Byte) : (wramWrite a b s).insCycles = s.insCycles := rfl
@[simp] theorem wramWrite_frameDone (a : Word) (b : Byte) : (wramWrite a b s).frameDone = s.frameDone := rfl
@[simp] theorem wramWrite_sampleIn (a : Word) (b : Byte) : (wramWrite a b s).sampleIn = s.sampleIn := rfl
@[simp] theorem wramWrite_samples (a : Word) (b : Byte) : (wramWrite a b s).samples = s.samples := rfl

end Sys2Proof.Machine
end

