-- ==== Sys2Proof/Laws/Access.lean ====
section
/-! SUPPORT. What one access can do: a read of the PPU space or of the CPU space completes exactly where `readable` says
and leaves all but a few fields alone; a write completes exactly where `writable` says and never touches the CPU. -/

namespace Sys2Proof.Machine

/-! ## Res -/

@[simp] theorem Res.bind_ok {α β : Type} (a : α) (s : State) (f : α → State → Res β) : (Res.ok a s).bind f = f a s := rfl

@[simp] theorem Res.bind_fault {α β : Type} (e : Fault) (f : α → State → Res β) :
    (Res.fault e : Res α).bind f = .fault e := rfl

@[simp] theorem Res.outcome_ok {α : Type} (a : α) (s : State) : (Res.ok a s).outcome = .next s := rfl

@[simp] theorem Res.outcome_fault {α : Type} (e : Fault) : (Res.fault e : Res α).outcome = .fault e := rfl

/-- A bind that completes has a first part that completes. -/
theorem Res.bind_eq_ok {α β : Type} {r : Res α} {f : α → State → Res β} {b : β} {t : State} :
    r.bind f = .ok b t ↔ ∃ a s, r = .ok a s ∧ f a s = .ok b t := by
  cases r with
  | ok a s => simp
  | fault e => simp

theorem Res.outcome_eq_next {α : Type} {r : Res α} {t : State} : r.outcome = .next t ↔ ∃ a, r = .ok a t := by
  cases r with
  | ok a s => simp
  | fault e => simp

theorem Res.outcome_ne_refused {α : Type} (r : Res α) (x : Refusal) : r.outcome ≠ .refused x := by
  cases r <;> simp [Res.outcome]

/-- An operation completes with a value and a state, or faults. -/
theorem Res.ok_or_fault {α : Type} (r : Res α) : (∃ a s, r = .ok a s) ∨ ∃ e, r = .fault e := by
  cases r with
  | ok a s => exact .inl ⟨a, s, rfl⟩
  | fault e => exact .inr ⟨e, rfl⟩

/-! ## PPU-space reads -/

/-- A PPU-space read changes nothing. -/
theorem ppuRead_ok {a : Nat} {s t : State} {b : Byte} (h : ppuRead a s = .ok b t) : t = s ∧ ppuPeek s a = some b := by
  unfold ppuRead at h
  split at h <;> simp_all

theorem ppuPeek_isSome (s : State) (a : Nat) :
    (∃ b, ppuPeek s a = some b) ↔ 0x2000 ≤ a ∨ a < s.cart.chrSize := by
  unfold ppuPeek
  split
  · split
    · simp_all
    · simp only [reduceCtorEq, exists_const, false_iff, not_or]; omega
  · split <;> (simp; omega)

theorem ppuRead_completes {s : State} {a : Nat} (h : 0x2000 ≤ a ∨ a < s.cart.chrSize) : ∃ b, ppuRead a s = .ok b s := by
  obtain ⟨b, hb⟩ := (ppuPeek_isSome s a).2 h
  exact ⟨b, by simp [ppuRead, hb]⟩

theorem ppuRead_faults {s : State} {a : Nat} (h : ¬(0x2000 ≤ a ∨ a < s.cart.chrSize)) :
    ppuRead a s = .fault (.f7ChrBounds s.cpu.pc a s) := by
  unfold ppuRead
  cases hb : ppuPeek s a with
  | none => rfl
  | some b => exact absurd ((ppuPeek_isSome s a).1 ⟨b, hb⟩) h

/-! ## What a CPU-space read leaves alone -/

/-- All that a CPU-space read can change: the PPU's VBlank flag, toggle, read buffer and address, the index of a
controller (never past 8), and the count of drawn bytes (20_memory.md R116). -/
structure ReadFrame (s t : State) : Prop where
  state : t = { s with ppu := t.ppu, ctl := t.ctl, draws := t.draws }
  ppu : t.ppu = { s.ppu with vblank := t.ppu.vblank, w := t.ppu.w, rdbuf := t.ppu.rdbuf, v := t.ppu.v }
  pad0 : t.ctl.pad0 = { s.ctl.pad0 with index := t.ctl.pad0.index }
  pad1 : t.ctl.pad1 = { s.ctl.pad1 with index := t.ctl.pad1.index }
  strobe : t.ctl.strobe = s.ctl.strobe
  index0 : s.ctl.pad0.index ≤ 8 → t.ctl.pad0.index ≤ 8
  index1 : s.ctl.pad1.index ≤ 8 → t.ctl.pad1.index ≤ 8

theorem ReadFrame.refl (s : State) : ReadFrame s s := ⟨rfl, rfl, rfl, rfl, rfl, id, id⟩

theorem ReadFrame.trans {s t u : State} (h : ReadFrame s t) (k : ReadFrame t u) : ReadFrame s u where
  state := by rw [k.state, h.state]
  ppu := by rw [k.ppu, h.ppu]
  pad0 := by rw [k.pad0, h.pad0]
  pad1 := by rw [k.pad1, h.pad1]
  strobe := k.strobe.trans h.strobe
  index0 := fun x => k.index0 (h.index0 x)
  index1 := fun x => k.index1 (h.index1 x)

section
variable {s t : State} (h : ReadFrame s t)
include h
theorem ReadFrame.cpu : t.cpu = s.cpu := by rw [h.state]
theorem ReadFrame.emu : t.emu = s.emu := by rw [h.state]
theorem ReadFrame.wram : t.wram = s.wram := by rw [h.state]
theorem ReadFrame.prgRam : t.prgRam = s.prgRam := by rw [h.state]
theorem ReadFrame.bus : t.bus = s.bus := by rw [h.state]
theorem ReadFrame.apu : t.apu = s.apu := by rw [h.state]
theorem ReadFrame.cart : t.cart = s.cart := by rw [h.state]
theorem ReadFrame.params : t.params = s.params := by rw [h.state]
theorem ReadFrame.insCycles : t.insCycles = s.insCycles := by rw [h.state]
theorem ReadFrame.sampleIn : t.sampleIn = s.sampleIn := by rw [h.state]
end

theorem Pad.afterRead_eq (p : Pad) (strobe : Bool) :
    p.afterRead strobe = { p with index := (p.afterRead strobe).index } := by
  unfold Pad.afterRead
  split <;> rfl

theorem Pad.afterRead_index_le (p : Pad) (strobe : Bool) (h : p.index ≤ 8) : (p.afterRead strobe).index ≤ 8 := by
  unfold Pad.afterRead
  split
  · rename_i hc
    simp only [Bool.and_eq_true, decide_eq_true_eq] at hc
    exact hc.2
  · exact h

theorem portRead_frame {a : Word} {s t : State} {b : Byte} (h : portRead a s = .ok b t) : ReadFrame s t := by
  unfold portRead at h
  split at h
  · cases h
    exact ⟨rfl, rfl, rfl, rfl, rfl, id, id⟩
  · cases h
    exact .refl s
  · simp only [readData] at h
    split at h
    · obtain ⟨b', s1, h1, h2⟩ := Res.bind_eq_ok.1 h
      obtain ⟨rfl, -⟩ := ppuRead_ok h1
      cases h2
      exact ⟨rfl, rfl, rfl, rfl, rfl, id, id⟩
    · obtain ⟨b', s1, h1, h2⟩ := Res.bind_eq_ok.1 h
      obtain ⟨rfl, -⟩ := ppuRead_ok h1
      cases h2
      exact ⟨rfl, rfl, rfl, rfl, rfl, id, id⟩
  · cases h

theorem ioRead_frame {r : Nat} {s t : State} {b : Byte} (h : ioRead r s = .ok b t) : ReadFrame s t := by
  unfold ioRead at h
  split at h
  · cases h
    exact ⟨rfl, rfl, rfl, rfl, rfl, id, id⟩
  · cases h
    exact ⟨rfl, rfl, Pad.afterRead_eq _ _, rfl, rfl, Pad.afterRead_index_le _ _, id⟩
  · cases h
    exact ⟨rfl, rfl, rfl, Pad.afterRead_eq _ _, rfl, id, Pad.afterRead_index_le _ _⟩
  · cases h
    exact ⟨rfl, rfl, rfl, rfl, rfl, id, id⟩

/-- All that a CPU-space read can do to the state. -/
theorem busRead_frame {a : Word} {s t : State} {b : Byte} (h : busRead a s = .ok b t) : ReadFrame s t := by
  unfold busRead at h
  split at h
  · cases h; exact .refl s
  split at h
  · exact portRead_frame h
  split at h
  · exact ioRead_frame h
  split at h
  · cases h
  split at h
  · split at h
    · cases h; exact .refl s
    · cases h
  · cases h; exact .refl s

/-! ## Where a read completes -/

theorem portRead_completes (a : Word) (s : State) :
    (∃ b t, portRead a s = .ok b t) ↔
      (a.toNat % 8 == 2 || a.toNat % 8 == 4 || (a.toNat % 8 == 7 && dataReachable s)) = true := by
  unfold portRead
  split
  · rename_i hp; simp [hp, readStatus]
  · rename_i hp; simp [hp]
  · rename_i hp
    simp only [hp, readData, dataReachable]
    have hrw : ((7 == 2 || 7 == 4 || (7 == 7 && (decide (0x2000 ≤ s.ppu.dataAddr) ||
        decide (s.ppu.dataAddr < s.cart.chrSize)))) = true) ↔
        (0x2000 ≤ s.ppu.dataAddr ∨ s.ppu.dataAddr < s.cart.chrSize) := by simp
    rw [hrw]
    constructor
    · rintro ⟨b, t, h⟩
      split at h
      · obtain ⟨b', s1, h1, -⟩ := Res.bind_eq_ok.1 h
        exact (ppuPeek_isSome s _).1 ⟨b', (ppuRead_ok h1).2⟩
      · left; omega
    · intro h
      split
      · obtain ⟨b, hb⟩ := ppuRead_completes h
        exact ⟨_, _, by rw [hb]; rfl⟩
      · obtain ⟨b, hb⟩ := ppuRead_completes (s := s) (a := s.ppu.dataAddr - 0x1000) (.inl (by omega))
        exact ⟨_, _, by rw [hb]; rfl⟩
  · rename_i h2 h4 h7
    simp only [reduceCtorEq, exists_false, Bool.or_eq_true, beq_iff_eq, Bool.and_eq_true, false_iff, not_or, not_and]
    exact ⟨⟨h2, h4⟩, fun h => absurd h h7⟩

theorem ioRead_completes (r : Nat) (s : State) : ∃ b t, ioRead r s = .ok b t := by
  unfold ioRead
  split <;> exact ⟨_, _, rfl⟩

/-- A read completes exactly where `readable` says. -/
theorem busRead_completes (a : Word) (s : State) : (∃ b t, busRead a s = .ok b t) ↔ readable s a = true := by
  unfold busRead readable
  split
  · simp
  split
  · exact portRead_completes a s
  split
  · simp [ioRead_completes]
  split
  · simp
  split
  · split <;> simp_all
  · simp

theorem busRead_faults {a : Word} {s : State} (h : readable s a = false) : ∃ e, busRead a s = .fault e := by
  rcases Res.ok_or_fault (busRead a s) with ⟨b, t, hb⟩ | h'
  · have := (busRead_completes a s).1 ⟨b, t, hb⟩
    rw [h] at this
    cases this
  · exact h'

/-- A page-0 or page-1 read is a read of work RAM. -/
theorem busRead_wram {a : Word} {s : State} (h : a.toNat < 0x2000) : busRead a s = .ok (wramRead s a) s := by
  simp [busRead, h]

/-- The read of an address with storage behind it gives the stored byte and changes nothing. -/
theorem busRead_stored {a : Word} {s : State} {b : Byte} (h : storedByte s a = some b) : busRead a s = .ok b s := by
  unfold storedByte cellOf at h
  unfold busRead
  split at h
  · rename_i h1
    simp only [h1, if_true]
    cases h
    rfl
  · rename_i h1
    split at h
    · cases h
    · rename_i h2
      have h3 : ¬ a.toNat < 0x4000 := by omega
      have h4 : ¬ a.toNat < 0x4020 := by omega
      simp only [h1, h2, h3, h4, if_false]
      split at h
      · rename_i h5
        simp only [h5, if_true]
        split at h
        · rename_i h6
          simp only [h6, if_true]
          cases h
          rfl
        · cases h
      · rename_i h5
        simp only [h5, if_false]
        cases h
        rfl

/-! ## Writes -/

/-- All that a CPU-space write can change (20_memory.md R104, R108): work RAM, PRG RAM, the DMA kick, the PPU, the APU,
the controllers' latches, and the cassette's bytes. Never the CPU, the counters, the parameters or the model's own
fields. -/
structure WriteFrame (s t : State) : Prop where
  state : t = { s with wram := t.wram, prgRam := t.prgRam, bus := t.bus, ppu := t.ppu, apu := t.apu, ctl := t.ctl,
                       cart := t.cart }
  ppu : t.ppu = { s.ppu with ctrl := t.ppu.ctrl, mask := t.ppu.mask, oamaddr := t.ppu.oamaddr, v := t.ppu.v,
                             t := t.ppu.t, x := t.ppu.x, w := t.ppu.w, oam := t.ppu.oam, nt := t.ppu.nt,
                             pal := t.ppu.pal }
  cart : t.cart = { s.cart with prg := t.cart.prg, chr := t.cart.chr }
  buttons0 : t.ctl.pad0.buttons = s.ctl.pad0.buttons
  buttons1 : t.ctl.pad1.buttons = s.ctl.pad1.buttons

theorem WriteFrame.refl (s : State) : WriteFrame s s := ⟨rfl, rfl, rfl, rfl, rfl⟩

section
variable {s t : State} (h : WriteFrame s t)
include h
theorem WriteFrame.cpu : t.cpu = s.cpu := by rw [h.state]
theorem WriteFrame.emu : t.emu = s.emu := by rw [h.state]
theorem WriteFrame.params : t.params = s.params := by rw [h.state]
theorem WriteFrame.insCycles : t.insCycles = s.insCycles := by rw [h.state]
theorem WriteFrame.sampleIn : t.sampleIn = s.sampleIn := by rw [h.state]
theorem WriteFrame.draws : t.draws = s.draws := by rw [h.state]
theorem WriteFrame.frameDone : t.frameDone = s.frameDone := by rw [h.state]
theorem WriteFrame.samples : t.samples = s.samples := by rw [h.state]
end

theorem ppuWrite_frame {a : Nat} {d : Byte} {s t : State} {u : Unit} (h : ppuWrite a d s = .ok u t) :
    WriteFrame s t := by
  unfold ppuWrite at h
  split at h
  · split at h
    · cases h; exact ⟨rfl, rfl, rfl, rfl, rfl⟩
    · cases h
  · split at h <;> (cases h; exact ⟨rfl, rfl, rfl, rfl, rfl⟩)

theorem Ppu.writeScroll_frame (d : Byte) (p : Ppu) :
    p.writeScroll d = { p with t := (p.writeScroll d).t, x := (p.writeScroll d).x, w := (p.writeScroll d).w } := by
  unfold Ppu.writeScroll
  split <;> rfl

theorem Ppu.writeAddr_frame (d : Byte) (p : Ppu) :
    p.writeAddr d = { p with t := (p.writeAddr d).t, v := (p.writeAddr d).v, w := (p.writeAddr d).w } := by
  unfold Ppu.writeAddr
  split <;> rfl

theorem portWrite_frame {a : Word} {d : Byte} {s t : State} {u : Unit} (h : portWrite a d s = .ok u t) :
    WriteFrame s t := by
  unfold portWrite at h
  split at h
  · split at h
    · cases h
    · cases h; exact ⟨rfl, rfl, rfl, rfl, rfl⟩
  · cases h; exact ⟨rfl, rfl, rfl, rfl, rfl⟩
  · cases h; exact .refl s
  · cases h; exact ⟨rfl, rfl, rfl, rfl, rfl⟩
  · cases h; exact ⟨rfl, rfl, rfl, rfl, rfl⟩
  · cases h
    refine ⟨rfl, ?_, rfl, rfl, rfl⟩
    simp only [State.mapPpu_ppu]
    rw [Ppu.writeScroll_frame]
  · cases h
    refine ⟨rfl, ?_, rfl, rfl, rfl⟩
    simp only [State.mapPpu_ppu]
    rw [Ppu.writeAddr_frame]
  · obtain ⟨u', s1, h1, h2⟩ := Res.bind_eq_ok.1 h
    have f := ppuWrite_frame h1
    cases h2
    refine ⟨?_, ?_, f.cart, f.buttons0, f.buttons1⟩
    · simp only [State.mapPpu]
      rw [f.cpu, f.emu, f.params, f.draws, f.insCycles, f.frameDone, f.sampleIn, f.samples]
    · simp only [State.mapPpu_ppu, Ppu.incV]
      rw [f.ppu]

theorem Ctl.writeStrobe_buttons (d : Byte) (c : Ctl) :
    (c.writeStrobe d).pad0.buttons = c.pad0.buttons ∧ (c.writeStrobe d).pad1.buttons = c.pad1.buttons := by
  unfold Ctl.writeStrobe
  split <;> exact ⟨rfl, rfl⟩

theorem Ctl.writeStrobe_index (d : Byte) (c : Ctl) :
    (c.pad0.index ≤ 8 → (c.writeStrobe d).pad0.index ≤ 8) ∧ (c.pad1.index ≤ 8 → (c.writeStrobe d).pad1.index ≤ 8) := by
  unfold Ctl.writeStrobe
  split <;> simp [Pad.latch]

theorem ioWrite_frame (r : Nat) (d : Byte) (s : State) : WriteFrame s (ioWrite r d s) := by
  unfold ioWrite
  split
  · exact ⟨rfl, rfl, rfl, rfl, rfl⟩
  · exact ⟨rfl, rfl, rfl, (Ctl.writeStrobe_buttons d s.ctl).1, (Ctl.writeStrobe_buttons d s.ctl).2⟩
  · exact ⟨rfl, rfl, rfl, rfl, rfl⟩

/-- All that a CPU-space write can do to the state. -/
theorem busWrite_frame {a : Word} {d : Byte} {s t : State} {u : Unit} (h : busWrite a d s = .ok u t) :
    WriteFrame s t := by
  unfold busWrite at h
  split at h
  · cases h; exact ⟨rfl, rfl, rfl, rfl, rfl⟩
  split at h
  · exact portWrite_frame h
  split at h
  · obtain ⟨-, rfl⟩ := Res.ok.inj h
    exact ioWrite_frame (a.toNat - 0x4000) d s
  split at h
  · cases h
  split at h
  · split at h
    · cases h; exact ⟨rfl, rfl, rfl, rfl, rfl⟩
    · cases h
  · simp only [prgWrite] at h
    split at h
    · cases h; exact ⟨rfl, rfl, rfl, rfl, rfl⟩
    · cases h

theorem ppuWrite_completes (a : Nat) (d : Byte) (s : State) :
    (∃ t, ppuWrite a d s = .ok () t) ↔ 0x2000 ≤ a ∨ a < s.cart.chrSize := by
  unfold ppuWrite
  split
  · split
    · simp_all
    · simp only [reduceCtorEq, exists_false, false_iff, not_or]; omega
  · split <;> (simp; omega)

/-- A write completes exactly where `writable` says. -/
theorem busWrite_completes (a : Word) (d : Byte) (s : State) :
    (∃ t, busWrite a d s = .ok () t) ↔ writable s a d = true := by
  unfold busWrite writable
  split
  · simp
  split
  · unfold portWrite
    split
    · rename_i hp
      simp only [hp, if_true]
      split <;> simp_all
    · rename_i hp; simp [hp]
    · rename_i hp; simp [hp]
    · rename_i hp; simp [hp]
    · rename_i hp; simp [hp]
    · rename_i hp; simp [hp]
    · rename_i hp; simp [hp]
    · rename_i h0 h1 h2 h3 h4 h5 h6
      have h7 : a.toNat % 8 = 7 := by
        have hlt := Nat.mod_lt a.toNat (show 8 > 0 by decide)
        generalize a.toNat % 8 = k at *
        interval_cases k <;> simp_all
      have hw := ppuWrite_completes s.ppu.dataAddr d s
      simp only [h7, writeData, dataReachable]
      simp only [show ¬ (7 = 0) by decide, if_false, if_true, Bool.or_eq_true, decide_eq_true_eq]
      rw [← hw]
      constructor
      · rintro ⟨t, h⟩
        obtain ⟨u, s1, h1, -⟩ := Res.bind_eq_ok.1 h
        exact ⟨s1, h1⟩
      · rintro ⟨t, h⟩
        exact ⟨_, by rw [h]; rfl⟩
  split
  · simp
  split
  · simp
  split
  · split <;> simp_all
  · simp only [prgWrite]
    split <;> simp_all

theorem busWrite_faults {a : Word} {d : Byte} {s : State} (h : writable s a d = false) :
    ∃ e, busWrite a d s = .fault e := by
  rcases Res.ok_or_fault (busWrite a d s) with ⟨b, t, hb⟩ | h'
  · have := (busWrite_completes a d s).1 ⟨t, hb⟩
    rw [h] at this
    cases this
  · exact h'

end Sys2Proof.Machine
end

