-- ==== Sys2Proof/Laws/PerInstr.lean ====
section
/-! SUPPORT. The per-instruction family `Encoding`: what the encoding and the decoder do with each constructor's row. -/

/-- The encoding of the instruction has the row's length and begins with the row's opcode, and that opcode byte decodes
to this row whatever bytes follow it (30_encoding.md R160, R161, R167). -/
def Sys2Proof.Laws.Encoding.Statement (i : Sys2Proof.Instr) : Prop :=
  (Sys2Proof.encode i).length = i.length ∧ (Sys2Proof.encode i).head? = some i.row.opcode ∧
    ∀ b1 b2 : Sys2Proof.Byte, (Sys2Proof.decodeOp i.row.opcode b1 b2).row = i.row

namespace Sys2Proof.Laws.Encoding

theorem brk : Statement .brk := ⟨rfl, rfl, fun _ _ => rfl⟩
theorem oraIzx (z : Byte) : Statement (.oraIzx z) := ⟨rfl, rfl, fun b1 b2 => (rfl : (decodeOp 0x01 b1 b2).row = _)⟩
theorem jam02 : Statement .jam02 := ⟨rfl, rfl, fun _ _ => rfl⟩
theorem sloIzx (z : Byte) : Statement (.sloIzx z) := ⟨rfl, rfl, fun b1 b2 => (rfl : (decodeOp 0x03 b1 b2).row = _)⟩
theorem nop04 (z : Byte) : Statement (.nop04 z) := ⟨rfl, rfl, fun b1 b2 => (rfl : (decodeOp 0x04 b1 b2).row = _)⟩
theorem oraZp (z : Byte) : Statement (.oraZp z) := ⟨rfl, rfl, fun b1 b2 => (rfl : (decodeOp 0x05 b1 b2).row = _)⟩
theorem aslZp (z : Byte) : Statement (.aslZp z) := ⟨rfl, rfl, fun b1 b2 => (rfl : (decodeOp 0x06 b1 b2).row = _)⟩
theorem sloZp (z : Byte) : Statement (.sloZp z) := ⟨rfl, rfl, fun b1 b2 => (rfl : (decodeOp 0x07 b1 b2).row = _)⟩
theorem php : Statement .php := ⟨rfl, rfl, fun _ _ => rfl⟩
theorem oraImm (v : Byte) : Statement (.oraImm v) := ⟨rfl, rfl, fun b1 b2 => (rfl : (decodeOp 0x09 b1 b2).row = _)⟩
theorem aslAcc : Statement .aslAcc := ⟨rfl, rfl, fun _ _ => rfl⟩
theorem anc0B (v : Byte) : Statement (.anc0B v) := ⟨rfl, rfl, fun b1 b2 => (rfl : (decodeOp 0x0B b1 b2).row = _)⟩
theorem nop0C (a : Word) : Statement (.nop0C a) := ⟨rfl, rfl, fun b1 b2 => (rfl : (decodeOp 0x0C b1 b2).row = _)⟩
theorem oraAbs (a : Word) : Statement (.oraAbs a) := ⟨rfl, rfl, fun b1 b2 => (rfl : (decodeOp 0x0D b1 b2).row = _)⟩
theorem aslAbs (a : Word) : Statement (.aslAbs a) := ⟨rfl, rfl, fun b1 b2 => (rfl : (decodeOp 0x0E b1 b2).row = _)⟩
theorem sloAbs (a : Word) : Statement (.sloAbs a) := ⟨rfl, rfl, fun b1 b2 => (rfl : (decodeOp 0x0F b1 b2).row = _)⟩
theorem bpl (d : Int) : Statement (.bpl d) := ⟨rfl, rfl, fun b1 b2 => (rfl : (decodeOp 0x10 b1 b2).row = _)⟩
theorem oraIzy (z : Byte) : Statement (.oraIzy z) := ⟨rfl, rfl, fun b1 b2 => (rfl : (decodeOp 0x11 b1 b2).row = _)⟩
theorem jam12 : Statement .jam12 := ⟨rfl, rfl, fun _ _ => rfl⟩
theorem sloIzy (z : Byte) : Statement (.sloIzy z) := ⟨rfl, rfl, fun b1 b2 => (rfl : (decodeOp 0x13 b1 b2).row = _)⟩
theorem nop14 (z : Byte) : Statement (.nop14 z) := ⟨rfl, rfl, fun b1 b2 => (rfl : (decodeOp 0x14 b1 b2).row = _)⟩
theorem oraZpx (z : Byte) : Statement (.oraZpx z) := ⟨rfl, rfl, fun b1 b2 => (rfl : (decodeOp 0x15 b1 b2).row = _)⟩
theorem aslZpx (z : Byte) : Statement (.aslZpx z) := ⟨rfl, rfl, fun b1 b2 => (rfl : (decodeOp 0x16 b1 b2).row = _)⟩
theorem sloZpx (z : Byte) : Statement (.sloZpx z) := ⟨rfl, rfl, fun b1 b2 => (rfl : (decodeOp 0x17 b1 b2).row = _)⟩
theorem clc : Statement .clc := ⟨rfl, rfl, fun _ _ => rfl⟩
theorem oraAby (a : Word) : Statement (.oraAby a) := ⟨rfl, rfl, fun b1 b2 => (rfl : (decodeOp 0x19 b1 b2).row = _)⟩
theorem nop1A : Statement .nop1A := ⟨rfl, rfl, fun _ _ => rfl⟩
theorem sloAby (a : Word) : Statement (.sloAby a) := ⟨rfl, rfl, fun b1 b2 => (rfl : (decodeOp 0x1B b1 b2).row = _)⟩
theorem nop1C (a : Word) : Statement (.nop1C a) := ⟨rfl, rfl, fun b1 b2 => (rfl : (decodeOp 0x1C b1 b2).row = _)⟩
theorem oraAbx (a : Word) : Statement (.oraAbx a) := ⟨rfl, rfl, fun b1 b2 => (rfl : (decodeOp 0x1D b1 b2).row = _)⟩
theorem aslAbx (a : Word) : Statement (.aslAbx a) := ⟨rfl, rfl, fun b1 b2 => (rfl : (decodeOp 0x1E b1 b2).row = _)⟩
theorem sloAbx (a : Word) : Statement (.sloAbx a) := ⟨rfl, rfl, fun b1 b2 => (rfl : (decodeOp 0x1F b1 b2).row = _)⟩
theorem jsr (a : Word) : Statement (.jsr a) := ⟨rfl, rfl, fun b1 b2 => (rfl : (decodeOp 0x20 b1 b2).row = _)⟩
theorem andIzx (z : Byte) : Statement (.andIzx z) := ⟨rfl, rfl, fun b1 b2 => (rfl : (decodeOp 0x21 b1 b2).row = _)⟩
theorem jam22 : Statement .jam22 := ⟨rfl, rfl, fun _ _ => rfl⟩
theorem rlaIzx (z : Byte) : Statement (.rlaIzx z) := ⟨rfl, rfl, fun b1 b2 => (rfl : (decodeOp 0x23 b1 b2).row = _)⟩
theorem bitZp (z : Byte) : Statement (.bitZp z) := ⟨rfl, rfl, fun b1 b2 => (rfl : (decodeOp 0x24 b1 b2).row = _)⟩
theorem andZp (z : Byte) : Statement (.andZp z) := ⟨rfl, rfl, fun b1 b2 => (rfl : (decodeOp 0x25 b1 b2).row = _)⟩
theorem rolZp (z : Byte) : Statement (.rolZp z) := ⟨rfl, rfl, fun b1 b2 => (rfl : (decodeOp 0x26 b1 b2).row = _)⟩
theorem rlaZp (z : Byte) : Statement (.rlaZp z) := ⟨rfl, rfl, fun b1 b2 => (rfl : (decodeOp 0x27 b1 b2).row = _)⟩
theorem plp : Statement .plp := ⟨rfl, rfl, fun _ _ => rfl⟩
theorem andImm (v : Byte) : Statement (.andImm v) := ⟨rfl, rfl, fun b1 b2 => (rfl : (decodeOp 0x29 b1 b2).row = _)⟩
theorem rolAcc : Statement .rolAcc := ⟨rfl, rfl, fun _ _ => rfl⟩
theorem anc2B (v : Byte) : Statement (.anc2B v) := ⟨rfl, rfl, fun b1 b2 => (rfl : (decodeOp 0x2B b1 b2).row = _)⟩
theorem bitAbs (a : Word) : Statement (.bitAbs a) := ⟨rfl, rfl, fun b1 b2 => (rfl : (decodeOp 0x2C b1 b2).row = _)⟩
theorem andAbs (a : Word) : Statement (.andAbs a) := ⟨rfl, rfl, fun b1 b2 => (rfl : (decodeOp 0x2D b1 b2).row = _)⟩
theorem rolAbs (a : Word) : Statement (.rolAbs a) := ⟨rfl, rfl, fun b1 b2 => (rfl : (decodeOp 0x2E b1 b2).row = _)⟩
theorem rlaAbs (a : Word) : Statement (.rlaAbs a) := ⟨rfl, rfl, fun b1 b2 => (rfl : (decodeOp 0x2F b1 b2).row = _)⟩
theorem bmi (d : Int) : Statement (.bmi d) := ⟨rfl, rfl, fun b1 b2 => (rfl : (decodeOp 0x30 b1 b2).row = _)⟩
theorem andIzy (z : Byte) : Statement (.andIzy z) := ⟨rfl, rfl, fun b1 b2 => (rfl : (decodeOp 0x31 b1 b2).row = _)⟩
theorem jam32 : Statement .jam32 := ⟨rfl, rfl, fun _ _ => rfl⟩
theorem rlaIzy (z : Byte) : Statement (.rlaIzy z) := ⟨rfl, rfl, fun b1 b2 => (rfl : (decodeOp 0x33 b1 b2).row = _)⟩
theorem nop34 (z : Byte) : Statement (.nop34 z) := ⟨rfl, rfl, fun b1 b2 => (rfl : (decodeOp 0x34 b1 b2).row = _)⟩
theorem andZpx (z : Byte) : Statement (.andZpx z) := ⟨rfl, rfl, fun b1 b2 => (rfl : (decodeOp 0x35 b1 b2).row = _)⟩
theorem rolZpx (z : Byte) : Statement (.rolZpx z) := ⟨rfl, rfl, fun b1 b2 => (rfl : (decodeOp 0x36 b1 b2).row = _)⟩
theorem rlaZpx (z : Byte) : Statement (.rlaZpx z) := ⟨rfl, rfl, fun b1 b2 => (rfl : (decodeOp 0x37 b1 b2).row = _)⟩
theorem sec : Statement .sec := ⟨rfl, rfl, fun _ _ => rfl⟩
theorem andAby (a : Word) : Statement (.andAby a) := ⟨rfl, rfl, fun b1 b2 => (rfl : (decodeOp 0x39 b1 b2).row = _)⟩
theorem nop3A : Statement .nop3A := ⟨rfl, rfl, fun _ _ => rfl⟩
theorem rlaAby (a : Word) : Statement (.rlaAby a) := ⟨rfl, rfl, fun b1 b2 => (rfl : (decodeOp 0x3B b1 b2).row = _)⟩
theorem nop3C (a : Word) : Statement (.nop3C a) := ⟨rfl, rfl, fun b1 b2 => (rfl : (decodeOp 0x3C b1 b2).row = _)⟩
theorem andAbx (a : Word) : Statement (.andAbx a) := ⟨rfl, rfl, fun b1 b2 => (rfl : (decodeOp 0x3D b1 b2).row = _)⟩
theorem rolAbx (a : Word) : Statement (.rolAbx a) := ⟨rfl, rfl, fun b1 b2 => (rfl : (decodeOp 0x3E b1 b2).row = _)⟩
theorem rlaAbx (a : Word) : Statement (.rlaAbx a) := ⟨rfl, rfl, fun b1 b2 => (rfl : (decodeOp 0x3F b1 b2).row = _)⟩
theorem rti : Statement .rti := ⟨rfl, rfl, fun _ _ => rfl⟩
theorem eorIzx (z : Byte) : Statement (.eorIzx z) := ⟨rfl, rfl, fun b1 b2 => (rfl : (decodeOp 0x41 b1 b2).row = _)⟩
theorem jam42 : Statement .jam42 := ⟨rfl, rfl, fun _ _ => rfl⟩
theorem sreIzx (z : Byte) : Statement (.sreIzx z) := ⟨rfl, rfl, fun b1 b2 => (rfl : (decodeOp 0x43 b1 b2).row = _)⟩
theorem nop44 (z : Byte) : Statement (.nop44 z) := ⟨rfl, rfl, fun b1 b2 => (rfl : (decodeOp 0x44 b1 b2).row = _)⟩
theorem eorZp (z : Byte) : Statement (.eorZp z) := ⟨rfl, rfl, fun b1 b2 => (rfl : (decodeOp 0x45 b1 b2).row = _)⟩
theorem lsrZp (z : Byte) : Statement (.lsrZp z) := ⟨rfl, rfl, fun b1 b2 => (rfl : (decodeOp 0x46 b1 b2).row = _)⟩
theorem sreZp (z : Byte) : Statement (.sreZp z) := ⟨rfl, rfl, fun b1 b2 => (rfl : (decodeOp 0x47 b1 b2).row = _)⟩
theorem pha : Statement .pha := ⟨rfl, rfl, fun _ _ => rfl⟩
theorem eorImm (v : Byte) : Statement (.eorImm v) := ⟨rfl, rfl, fun b1 b2 => (rfl : (decodeOp 0x49 b1 b2).row = _)⟩
theorem lsrAcc : Statement .lsrAcc := ⟨rfl, rfl, fun _ _ => rfl⟩
theorem alrImm (v : Byte) : Statement (.alrImm v) := ⟨rfl, rfl, fun b1 b2 => (rfl : (decodeOp 0x4B b1 b2).row = _)⟩
theorem jmpAbs (a : Word) : Statement (.jmpAbs a) := ⟨rfl, rfl, fun b1 b2 => (rfl : (decodeOp 0x4C b1 b2).row = _)⟩
theorem eorAbs (a : Word) : Statement (.eorAbs a) := ⟨rfl, rfl, fun b1 b2 => (rfl : (decodeOp 0x4D b1 b2).row = _)⟩
theorem lsrAbs (a : Word) : Statement (.lsrAbs a) := ⟨rfl, rfl, fun b1 b2 => (rfl : (decodeOp 0x4E b1 b2).row = _)⟩
theorem sreAbs (a : Word) : Statement (.sreAbs a) := ⟨rfl, rfl, fun b1 b2 => (rfl : (decodeOp 0x4F b1 b2).row = _)⟩
theorem bvc (d : Int) : Statement (.bvc d) := ⟨rfl, rfl, fun b1 b2 => (rfl : (decodeOp 0x50 b1 b2).row = _)⟩
theorem eorIzy (z : Byte) : Statement (.eorIzy z) := ⟨rfl, rfl, fun b1 b2 => (rfl : (decodeOp 0x51 b1 b2).row = _)⟩
theorem jam52 : Statement .jam52 := ⟨rfl, rfl, fun _ _ => rfl⟩
theorem sreIzy (z : Byte) : Statement (.sreIzy z) := ⟨rfl, rfl, fun b1 b2 => (rfl : (decodeOp 0x53 b1 b2).row = _)⟩
theorem nop54 (z : Byte) : Statement (.nop54 z) := ⟨rfl, rfl, fun b1 b2 => (rfl : (decodeOp 0x54 b1 b2).row = _)⟩
theorem eorZpx (z : Byte) : Statement (.eorZpx z) := ⟨rfl, rfl, fun b1 b2 => (rfl : (decodeOp 0x55 b1 b2).row = _)⟩
theorem lsrZpx (z : Byte) : Statement (.lsrZpx z) := ⟨rfl, rfl, fun b1 b2 => (rfl : (decodeOp 0x56 b1 b2).row = _)⟩
theorem sreZpx (z : Byte) : Statement (.sreZpx z) := ⟨rfl, rfl, fun b1 b2 => (rfl : (decodeOp 0x57 b1 b2).row = _)⟩
theorem cli : Statement .cli := ⟨rfl, rfl, fun _ _ => rfl⟩
theorem eorAby (a : Word) : Statement (.eorAby a) := ⟨rfl, rfl, fun b1 b2 => (rfl : (decodeOp 0x59 b1 b2).row = _)⟩
theorem nop5A : Statement .nop5A := ⟨rfl, rfl, fun _ _ => rfl⟩
theorem sreAby (a : Word) : Statement (.sreAby a) := ⟨rfl, rfl, fun b1 b2 => (rfl : (decodeOp 0x5B b1 b2).row = _)⟩
theorem nop5C (a : Word) : Statement (.nop5C a) := ⟨rfl, rfl, fun b1 b2 => (rfl : (decodeOp 0x5C b1 b2).row = _)⟩
theorem eorAbx (a : Word) : Statement (.eorAbx a) := ⟨rfl, rfl, fun b1 b2 => (rfl : (decodeOp 0x5D b1 b2).row = _)⟩
theorem lsrAbx (a : Word) : Statement (.lsrAbx a) := ⟨rfl, rfl, fun b1 b2 => (rfl : (decodeOp 0x5E b1 b2).row = _)⟩
theorem sreAbx (a : Word) : Statement (.sreAbx a) := ⟨rfl, rfl, fun b1 b2 => (rfl : (decodeOp 0x5F b1 b2).row = _)⟩
theorem rts : Statement .rts := ⟨rfl, rfl, fun _ _ => rfl⟩
theorem adcIzx (z : Byte) : Statement (.adcIzx z) := ⟨rfl, rfl, fun b1 b2 => (rfl : (decodeOp 0x61 b1 b2).row = _)⟩
theorem jam62 : Statement .jam62 := ⟨rfl, rfl, fun _ _ => rfl⟩
theorem rraIzx (z : Byte) : Statement (.rraIzx z) := ⟨rfl, rfl, fun b1 b2 => (rfl : (decodeOp 0x63 b1 b2).row = _)⟩
theorem nop64 (z : Byte) : Statement (.nop64 z) := ⟨rfl, rfl, fun b1 b2 => (rfl : (decodeOp 0x64 b1 b2).row = _)⟩
theorem adcZp (z : Byte) : Statement (.adcZp z) := ⟨rfl, rfl, fun b1 b2 => (rfl : (decodeOp 0x65 b1 b2).row = _)⟩
theorem rorZp (z : Byte) : Statement (.rorZp z) := ⟨rfl, rfl, fun b1 b2 => (rfl : (decodeOp 0x66 b1 b2).row = _)⟩
theorem rraZp (z : Byte) : Statement (.rraZp z) := ⟨rfl, rfl, fun b1 b2 => (rfl : (decodeOp 0x67 b1 b2).row = _)⟩
theorem pla : Statement .pla := ⟨rfl, rfl, fun _ _ => rfl⟩
theorem adcImm (v : Byte) : Statement (.adcImm v) := ⟨rfl, rfl, fun b1 b2 => (rfl : (decodeOp 0x69 b1 b2).row = _)⟩
theorem rorAcc : Statement .rorAcc := ⟨rfl, rfl, fun _ _ => rfl⟩
theorem arrImm (v : Byte) : Statement (.arrImm v) := ⟨rfl, rfl, fun b1 b2 => (rfl : (decodeOp 0x6B b1 b2).row = _)⟩
theorem jmpInd (p : Word) : Statement (.jmpInd p) := ⟨rfl, rfl, fun b1 b2 => (rfl : (decodeOp 0x6C b1 b2).row = _)⟩
theorem adcAbs (a : Word) : Statement (.adcAbs a) := ⟨rfl, rfl, fun b1 b2 => (rfl : (decodeOp 0x6D b1 b2).row = _)⟩
theorem rorAbs (a : Word) : Statement (.rorAbs a) := ⟨rfl, rfl, fun b1 b2 => (rfl : (decodeOp 0x6E b1 b2).row = _)⟩
theorem rraAbs (a : Word) : Statement (.rraAbs a) := ⟨rfl, rfl, fun b1 b2 => (rfl : (decodeOp 0x6F b1 b2).row = _)⟩
theorem bvs (d : Int) : Statement (.bvs d) := ⟨rfl, rfl, fun b1 b2 => (rfl : (decodeOp 0x70 b1 b2).row = _)⟩
theorem adcIzy (z : Byte) : Statement (.adcIzy z) := ⟨rfl, rfl, fun b1 b2 => (rfl : (decodeOp 0x71 b1 b2).row = _)⟩
theorem jam72 : Statement .jam72 := ⟨rfl, rfl, fun _ _ => rfl⟩
theorem rraIzy (z : Byte) : Statement (.rraIzy z) := ⟨rfl, rfl, fun b1 b2 => (rfl : (decodeOp 0x73 b1 b2).row = _)⟩
theorem nop74 (z : Byte) : Statement (.nop74 z) := ⟨rfl, rfl, fun b1 b2 => (rfl : (decodeOp 0x74 b1 b2).row = _)⟩
theorem adcZpx (z : Byte) : Statement (.adcZpx z) := ⟨rfl, rfl, fun b1 b2 => (rfl : (decodeOp 0x75 b1 b2).row = _)⟩
theorem rorZpx (z : Byte) : Statement (.rorZpx z) := ⟨rfl, rfl, fun b1 b2 => (rfl : (decodeOp 0x76 b1 b2).row = _)⟩
theorem rraZpx (z : Byte) : Statement (.rraZpx z) := ⟨rfl, rfl, fun b1 b2 => (rfl : (decodeOp 0x77 b1 b2).row = _)⟩
theorem sei : Statement .sei := ⟨rfl, rfl, fun _ _ => rfl⟩
theorem adcAby (a : Word) : Statement (.adcAby a) := ⟨rfl, rfl, fun b1 b2 => (rfl : (decodeOp 0x79 b1 b2).row = _)⟩
theorem nop7A : Statement .nop7A := ⟨rfl, rfl, fun _ _ => rfl⟩
theorem rraAby (a : Word) : Statement (.rraAby a) := ⟨rfl, rfl, fun b1 b2 => (rfl : (decodeOp 0x7B b1 b2).row = _)⟩
theorem nop7C (a : Word) : Statement (.nop7C a) := ⟨rfl, rfl, fun b1 b2 => (rfl : (decodeOp 0x7C b1 b2).row = _)⟩
theorem adcAbx (a : Word) : Statement (.adcAbx a) := ⟨rfl, rfl, fun b1 b2 => (rfl : (decodeOp 0x7D b1 b2).row = _)⟩
theorem rorAbx (a : Word) : Statement (.rorAbx a) := ⟨rfl, rfl, fun b1 b2 => (rfl : (decodeOp 0x7E b1 b2).row = _)⟩
theorem rraAbx (a : Word) : Statement (.rraAbx a) := ⟨rfl, rfl, fun b1 b2 => (rfl : (decodeOp 0x7F b1 b2).row = _)⟩
theorem nop80 (v : Byte) : Statement (.nop80 v) := ⟨rfl, rfl, fun b1 b2 => (rfl : (decodeOp 0x80 b1 b2).row = _)⟩
theorem staIzx (z : Byte) : Statement (.staIzx z) := ⟨rfl, rfl, fun b1 b2 => (rfl : (decodeOp 0x81 b1 b2).row = _)⟩
theorem nop82 (v : Byte) : Statement (.nop82 v) := ⟨rfl, rfl, fun b1 b2 => (rfl : (decodeOp 0x82 b1 b2).row = _)⟩
theorem saxIzx (z : Byte) : Statement (.saxIzx z) := ⟨rfl, rfl, fun b1 b2 => (rfl : (decodeOp 0x83 b1 b2).row = _)⟩
theorem styZp (z : Byte) : Statement (.styZp z) := ⟨rfl, rfl, fun b1 b2 => (rfl : (decodeOp 0x84 b1 b2).row = _)⟩
theorem staZp (z : Byte) : Statement (.staZp z) := ⟨rfl, rfl, fun b1 b2 => (rfl : (decodeOp 0x85 b1 b2).row = _)⟩
theorem stxZp (z : Byte) : Statement (.stxZp z) := ⟨rfl, rfl, fun b1 b2 => (rfl : (decodeOp 0x86 b1 b2).row = _)⟩
theorem saxZp (z : Byte) : Statement (.saxZp z) := ⟨rfl, rfl, fun b1 b2 => (rfl : (decodeOp 0x87 b1 b2).row = _)⟩
theorem dey : Statement .dey := ⟨rfl, rfl, fun _ _ => rfl⟩
theorem nop89 (v : Byte) : Statement (.nop89 v) := ⟨rfl, rfl, fun b1 b2 => (rfl : (decodeOp 0x89 b1 b2).row = _)⟩
theorem txa : Statement .txa := ⟨rfl, rfl, fun _ _ => rfl⟩
theorem xaaImm (v : Byte) : Statement (.xaaImm v) := ⟨rfl, rfl, fun b1 b2 => (rfl : (decodeOp 0x8B b1 b2).row = _)⟩
theorem styAbs (a : Word) : Statement (.styAbs a) := ⟨rfl, rfl, fun b1 b2 => (rfl : (decodeOp 0x8C b1 b2).row = _)⟩
theorem staAbs (a : Word) : Statement (.staAbs a) := ⟨rfl, rfl, fun b1 b2 => (rfl : (decodeOp 0x8D b1 b2).row = _)⟩
theorem stxAbs (a : Word) : Statement (.stxAbs a) := ⟨rfl, rfl, fun b1 b2 => (rfl : (decodeOp 0x8E b1 b2).row = _)⟩
theorem saxAbs (a : Word) : Statement (.saxAbs a) := ⟨rfl, rfl, fun b1 b2 => (rfl : (decodeOp 0x8F b1 b2).row = _)⟩
theorem bcc (d : Int) : Statement (.bcc d) := ⟨rfl, rfl, fun b1 b2 => (rfl : (decodeOp 0x90 b1 b2).row = _)⟩
theorem staIzy (z : Byte) : Statement (.staIzy z) := ⟨rfl, rfl, fun b1 b2 => (rfl : (decodeOp 0x91 b1 b2).row = _)⟩
theorem jam92 : Statement .jam92 := ⟨rfl, rfl, fun _ _ => rfl⟩
theorem ahxIzy (z : Byte) : Statement (.ahxIzy z) := ⟨rfl, rfl, fun b1 b2 => (rfl : (decodeOp 0x93 b1 b2).row = _)⟩
theorem styZpx (z : Byte) : Statement (.styZpx z) := ⟨rfl, rfl, fun b1 b2 => (rfl : (decodeOp 0x94 b1 b2).row = _)⟩
theorem staZpx (z : Byte) : Statement (.staZpx z) := ⟨rfl, rfl, fun b1 b2 => (rfl : (decodeOp 0x95 b1 b2).row = _)⟩
theorem stxZpy (z : Byte) : Statement (.stxZpy z) := ⟨rfl, rfl, fun b1 b2 => (rfl : (decodeOp 0x96 b1 b2).row = _)⟩
theorem saxZpy (z : Byte) : Statement (.saxZpy z) := ⟨rfl, rfl, fun b1 b2 => (rfl : (decodeOp 0x97 b1 b2).row = _)⟩
theorem tya : Statement .tya := ⟨rfl, rfl, fun _ _ => rfl⟩
theorem staAby (a : Word) : Statement (.staAby a) := ⟨rfl, rfl, fun b1 b2 => (rfl : (decodeOp 0x99 b1 b2).row = _)⟩
theorem txs : Statement .txs := ⟨rfl, rfl, fun _ _ => rfl⟩
theorem tasAby (a : Word) : Statement (.tasAby a) := ⟨rfl, rfl, fun b1 b2 => (rfl : (decodeOp 0x9B b1 b2).row = _)⟩
theorem shyAbx (a : Word) : Statement (.shyAbx a) := ⟨rfl, rfl, fun b1 b2 => (rfl : (decodeOp 0x9C b1 b2).row = _)⟩
theorem staAbx (a : Word) : Statement (.staAbx a) := ⟨rfl, rfl, fun b1 b2 => (rfl : (decodeOp 0x9D b1 b2).row = _)⟩
theorem shxAby (a : Word) : Statement (.shxAby a) := ⟨rfl, rfl, fun b1 b2 => (rfl : (decodeOp 0x9E b1 b2).row = _)⟩
theorem ahxAby (a : Word) : Statement (.ahxAby a) := ⟨rfl, rfl, fun b1 b2 => (rfl : (decodeOp 0x9F b1 b2).row = _)⟩
theorem ldyImm (v : Byte) : Statement (.ldyImm v) := ⟨rfl, rfl, fun b1 b2 => (rfl : (decodeOp 0xA0 b1 b2).row = _)⟩
theorem ldaIzx (z : Byte) : Statement (.ldaIzx z) := ⟨rfl, rfl, fun b1 b2 => (rfl : (decodeOp 0xA1 b1 b2).row = _)⟩
theorem ldxImm (v : Byte) : Statement (.ldxImm v) := ⟨rfl, rfl, fun b1 b2 => (rfl : (decodeOp 0xA2 b1 b2).row = _)⟩
theorem laxIzx (z : Byte) : Statement (.laxIzx z) := ⟨rfl, rfl, fun b1 b2 => (rfl : (decodeOp 0xA3 b1 b2).row = _)⟩
theorem ldyZp (z : Byte) : Statement (.ldyZp z) := ⟨rfl, rfl, fun b1 b2 => (rfl : (decodeOp 0xA4 b1 b2).row = _)⟩
theorem ldaZp (z : Byte) : Statement (.ldaZp z) := ⟨rfl, rfl, fun b1 b2 => (rfl : (decodeOp 0xA5 b1 b2).row = _)⟩
theorem ldxZp (z : Byte) : Statement (.ldxZp z) := ⟨rfl, rfl, fun b1 b2 => (rfl : (decodeOp 0xA6 b1 b2).row = _)⟩
theorem laxZp (z : Byte) : Statement (.laxZp z) := ⟨rfl, rfl, fun b1 b2 => (rfl : (decodeOp 0xA7 b1 b2).row = _)⟩
theorem tay : Statement .tay := ⟨rfl, rfl, fun _ _ => rfl⟩
theorem ldaImm (v : Byte) : Statement (.ldaImm v) := ⟨rfl, rfl, fun b1 b2 => (rfl : (decodeOp 0xA9 b1 b2).row = _)⟩
theorem tax : Statement .tax := ⟨rfl, rfl, fun _ _ => rfl⟩
theorem lxaImm (v : Byte) : Statement (.lxaImm v) := ⟨rfl, rfl, fun b1 b2 => (rfl : (decodeOp 0xAB b1 b2).row = _)⟩
theorem ldyAbs (a : Word) : Statement (.ldyAbs a) := ⟨rfl, rfl, fun b1 b2 => (rfl : (decodeOp 0xAC b1 b2).row = _)⟩
theorem ldaAbs (a : Word) : Statement (.ldaAbs a) := ⟨rfl, rfl, fun b1 b2 => (rfl : (decodeOp 0xAD b1 b2).row = _)⟩
theorem ldxAbs (a : Word) : Statement (.ldxAbs a) := ⟨rfl, rfl, fun b1 b2 => (rfl : (decodeOp 0xAE b1 b2).row = _)⟩
theorem laxAbs (a : Word) : Statement (.laxAbs a) := ⟨rfl, rfl, fun b1 b2 => (rfl : (decodeOp 0xAF b1 b2).row = _)⟩
theorem bcs (d : Int) : Statement (.bcs d) := ⟨rfl, rfl, fun b1 b2 => (rfl : (decodeOp 0xB0 b1 b2).row = _)⟩
theorem ldaIzy (z : Byte) : Statement (.ldaIzy z) := ⟨rfl, rfl, fun b1 b2 => (rfl : (decodeOp 0xB1 b1 b2).row = _)⟩
theorem jamB2 : Statement .jamB2 := ⟨rfl, rfl, fun _ _ => rfl⟩
theorem laxIzy (z : Byte) : Statement (.laxIzy z) := ⟨rfl, rfl, fun b1 b2 => (rfl : (decodeOp 0xB3 b1 b2).row = _)⟩
theorem ldyZpx (z : Byte) : Statement (.ldyZpx z) := ⟨rfl, rfl, fun b1 b2 => (rfl : (decodeOp 0xB4 b1 b2).row = _)⟩
theorem ldaZpx (z : Byte) : Statement (.ldaZpx z) := ⟨rfl, rfl, fun b1 b2 => (rfl : (decodeOp 0xB5 b1 b2).row = _)⟩
theorem ldxZpy (z : Byte) : Statement (.ldxZpy z) := ⟨rfl, rfl, fun b1 b2 => (rfl : (decodeOp 0xB6 b1 b2).row = _)⟩
theorem laxZpy (z : Byte) : Statement (.laxZpy z) := ⟨rfl, rfl, fun b1 b2 => (rfl : (decodeOp 0xB7 b1 b2).row = _)⟩
theorem clv : Statement .clv := ⟨rfl, rfl, fun _ _ => rfl⟩
theorem ldaAby (a : Word) : Statement (.ldaAby a) := ⟨rfl, rfl, fun b1 b2 => (rfl : (decodeOp 0xB9 b1 b2).row = _)⟩
theorem tsx : Statement .tsx := ⟨rfl, rfl, fun _ _ => rfl⟩
theorem lasAby (a : Word) : Statement (.lasAby a) := ⟨rfl, rfl, fun b1 b2 => (rfl : (decodeOp 0xBB b1 b2).row = _)⟩
theorem ldyAbx (a : Word) : Statement (.ldyAbx a) := ⟨rfl, rfl, fun b1 b2 => (rfl : (decodeOp 0xBC b1 b2).row = _)⟩
theorem ldaAbx (a : Word) : Statement (.ldaAbx a) := ⟨rfl, rfl, fun b1 b2 => (rfl : (decodeOp 0xBD b1 b2).row = _)⟩
theorem ldxAby (a : Word) : Statement (.ldxAby a) := ⟨rfl, rfl, fun b1 b2 => (rfl : (decodeOp 0xBE b1 b2).row = _)⟩
theorem laxAby (a : Word) : Statement (.laxAby a) := ⟨rfl, rfl, fun b1 b2 => (rfl : (decodeOp 0xBF b1 b2).row = _)⟩
theorem cpyImm (v : Byte) : Statement (.cpyImm v) := ⟨rfl, rfl, fun b1 b2 => (rfl : (decodeOp 0xC0 b1 b2).row = _)⟩
theorem cmpIzx (z : Byte) : Statement (.cmpIzx z) := ⟨rfl, rfl, fun b1 b2 => (rfl : (decodeOp 0xC1 b1 b2).row = _)⟩
theorem nopC2 (v : Byte) : Statement (.nopC2 v) := ⟨rfl, rfl, fun b1 b2 => (rfl : (decodeOp 0xC2 b1 b2).row = _)⟩
theorem dcpIzx (z : Byte) : Statement (.dcpIzx z) := ⟨rfl, rfl, fun b1 b2 => (rfl : (decodeOp 0xC3 b1 b2).row = _)⟩
theorem cpyZp (z : Byte) : Statement (.cpyZp z) := ⟨rfl, rfl, fun b1 b2 => (rfl : (decodeOp 0xC4 b1 b2).row = _)⟩
theorem cmpZp (z : Byte) : Statement (.cmpZp z) := ⟨rfl, rfl, fun b1 b2 => (rfl : (decodeOp 0xC5 b1 b2).row = _)⟩
theorem decZp (z : Byte) : Statement (.decZp z) := ⟨rfl, rfl, fun b1 b2 => (rfl : (decodeOp 0xC6 b1 b2).row = _)⟩
theorem dcpZp (z : Byte) : Statement (.dcpZp z) := ⟨rfl, rfl, fun b1 b2 => (rfl : (decodeOp 0xC7 b1 b2).row = _)⟩
theorem iny : Statement .iny := ⟨rfl, rfl, fun _ _ => rfl⟩
theorem cmpImm (v : Byte) : Statement (.cmpImm v) := ⟨rfl, rfl, fun b1 b2 => (rfl : (decodeOp 0xC9 b1 b2).row = _)⟩
theorem dex : Statement .dex := ⟨rfl, rfl, fun _ _ => rfl⟩
theorem axsImm (v : Byte) : Statement (.axsImm v) := ⟨rfl, rfl, fun b1 b2 => (rfl : (decodeOp 0xCB b1 b2).row = _)⟩
theorem cpyAbs (a : Word) : Statement (.cpyAbs a) := ⟨rfl, rfl, fun b1 b2 => (rfl : (decodeOp 0xCC b1 b2).row = _)⟩
theorem cmpAbs (a : Word) : Statement (.cmpAbs a) := ⟨rfl, rfl, fun b1 b2 => (rfl : (decodeOp 0xCD b1 b2).row = _)⟩
theorem decAbs (a : Word) : Statement (.decAbs a) := ⟨rfl, rfl, fun b1 b2 => (rfl : (decodeOp 0xCE b1 b2).row = _)⟩
theorem dcpAbs (a : Word) : Statement (.dcpAbs a) := ⟨rfl, rfl, fun b1 b2 => (rfl : (decodeOp 0xCF b1 b2).row = _)⟩
theorem bne (d : Int) : Statement (.bne d) := ⟨rfl, rfl, fun b1 b2 => (rfl : (decodeOp 0xD0 b1 b2).row = _)⟩
theorem cmpIzy (z : Byte) : Statement (.cmpIzy z) := ⟨rfl, rfl, fun b1 b2 => (rfl : (decodeOp 0xD1 b1 b2).row = _)⟩
theorem jamD2 : Statement .jamD2 := ⟨rfl, rfl, fun _ _ => rfl⟩
theorem dcpIzy (z : Byte) : Statement (.dcpIzy z) := ⟨rfl, rfl, fun b1 b2 => (rfl : (decodeOp 0xD3 b1 b2).row = _)⟩
theorem nopD4 (z : Byte) : Statement (.nopD4 z) := ⟨rfl, rfl, fun b1 b2 => (rfl : (decodeOp 0xD4 b1 b2).row = _)⟩
theorem cmpZpx (z : Byte) : Statement (.cmpZpx z) := ⟨rfl, rfl, fun b1 b2 => (rfl : (decodeOp 0xD5 b1 b2).row = _)⟩
theorem decZpx (z : Byte) : Statement (.decZpx z) := ⟨rfl, rfl, fun b1 b2 => (rfl : (decodeOp 0xD6 b1 b2).row = _)⟩
theorem dcpZpx (z : Byte) : Statement (.dcpZpx z) := ⟨rfl, rfl, fun b1 b2 => (rfl : (decodeOp 0xD7 b1 b2).row = _)⟩
theorem cld : Statement .cld := ⟨rfl, rfl, fun _ _ => rfl⟩
theorem cmpAby (a : Word) : Statement (.cmpAby a) := ⟨rfl, rfl, fun b1 b2 => (rfl : (decodeOp 0xD9 b1 b2).row = _)⟩
theorem nopDA : Statement .nopDA := ⟨rfl, rfl, fun _ _ => rfl⟩
theorem dcpAby (a : Word) : Statement (.dcpAby a) := ⟨rfl, rfl, fun b1 b2 => (rfl : (decodeOp 0xDB b1 b2).row = _)⟩
theorem nopDC (a : Word) : Statement (.nopDC a) := ⟨rfl, rfl, fun b1 b2 => (rfl : (decodeOp 0xDC b1 b2).row = _)⟩
theorem cmpAbx (a : Word) : Statement (.cmpAbx a) := ⟨rfl, rfl, fun b1 b2 => (rfl : (decodeOp 0xDD b1 b2).row = _)⟩
theorem decAbx (a : Word) : Statement (.decAbx a) := ⟨rfl, rfl, fun b1 b2 => (rfl : (decodeOp 0xDE b1 b2).row = _)⟩
theorem dcpAbx (a : Word) : Statement (.dcpAbx a) := ⟨rfl, rfl, fun b1 b2 => (rfl : (decodeOp 0xDF b1 b2).row = _)⟩
theorem cpxImm (v : Byte) : Statement (.cpxImm v) := ⟨rfl, rfl, fun b1 b2 => (rfl : (decodeOp 0xE0 b1 b2).row = _)⟩
theorem sbcIzx (z : Byte) : Statement (.sbcIzx z) := ⟨rfl, rfl, fun b1 b2 => (rfl : (decodeOp 0xE1 b1 b2).row = _)⟩
theorem nopE2 (v : Byte) : Statement (.nopE2 v) := ⟨rfl, rfl, fun b1 b2 => (rfl : (decodeOp 0xE2 b1 b2).row = _)⟩
theorem iscIzx (z : Byte) : Statement (.iscIzx z) := ⟨rfl, rfl, fun b1 b2 => (rfl : (decodeOp 0xE3 b1 b2).row = _)⟩
theorem cpxZp (z : Byte) : Statement (.cpxZp z) := ⟨rfl, rfl, fun b1 b2 => (rfl : (decodeOp 0xE4 b1 b2).row = _)⟩
theorem sbcZp (z : Byte) : Statement (.sbcZp z) := ⟨rfl, rfl, fun b1 b2 => (rfl : (decodeOp 0xE5 b1 b2).row = _)⟩
theorem incZp (z : Byte) : Statement (.incZp z) := ⟨rfl, rfl, fun b1 b2 => (rfl : (decodeOp 0xE6 b1 b2).row = _)⟩
theorem iscZp (z : Byte) : Statement (.iscZp z) := ⟨rfl, rfl, fun b1 b2 => (rfl : (decodeOp 0xE7 b1 b2).row = _)⟩
theorem inx : Statement .inx := ⟨rfl, rfl, fun _ _ => rfl⟩
theorem sbcImm (v : Byte) : Statement (.sbcImm v) := ⟨rfl, rfl, fun b1 b2 => (rfl : (decodeOp 0xE9 b1 b2).row = _)⟩
theorem nop : Statement .nop := ⟨rfl, rfl, fun _ _ => rfl⟩
theorem sbcEB (v : Byte) : Statement (.sbcEB v) := ⟨rfl, rfl, fun b1 b2 => (rfl : (decodeOp 0xEB b1 b2).row = _)⟩
theorem cpxAbs (a : Word) : Statement (.cpxAbs a) := ⟨rfl, rfl, fun b1 b2 => (rfl : (decodeOp 0xEC b1 b2).row = _)⟩
theorem sbcAbs (a : Word) : Statement (.sbcAbs a) := ⟨rfl, rfl, fun b1 b2 => (rfl : (decodeOp 0xED b1 b2).row = _)⟩
theorem incAbs (a : Word) : Statement (.incAbs a) := ⟨rfl, rfl, fun b1 b2 => (rfl : (decodeOp 0xEE b1 b2).row = _)⟩
theorem iscAbs (a : Word) : Statement (.iscAbs a) := ⟨rfl, rfl, fun b1 b2 => (rfl : (decodeOp 0xEF b1 b2).row = _)⟩
theorem beq (d : Int) : Statement (.beq d) := ⟨rfl, rfl, fun b1 b2 => (rfl : (decodeOp 0xF0 b1 b2).row = _)⟩
theorem sbcIzy (z : Byte) : Statement (.sbcIzy z) := ⟨rfl, rfl, fun b1 b2 => (rfl : (decodeOp 0xF1 b1 b2).row = _)⟩
theorem jamF2 : Statement .jamF2 := ⟨rfl, rfl, fun _ _ => rfl⟩
theorem iscIzy (z : Byte) : Statement (.iscIzy z) := ⟨rfl, rfl, fun b1 b2 => (rfl : (decodeOp 0xF3 b1 b2).row = _)⟩
theorem nopF4 (z : Byte) : Statement (.nopF4 z) := ⟨rfl, rfl, fun b1 b2 => (rfl : (decodeOp 0xF4 b1 b2).row = _)⟩
theorem sbcZpx (z : Byte) : Statement (.sbcZpx z) := ⟨rfl, rfl, fun b1 b2 => (rfl : (decodeOp 0xF5 b1 b2).row = _)⟩
theorem incZpx (z : Byte) : Statement (.incZpx z) := ⟨rfl, rfl, fun b1 b2 => (rfl : (decodeOp 0xF6 b1 b2).row = _)⟩
theorem iscZpx (z : Byte) : Statement (.iscZpx z) := ⟨rfl, rfl, fun b1 b2 => (rfl : (decodeOp 0xF7 b1 b2).row = _)⟩
theorem sed : Statement .sed := ⟨rfl, rfl, fun _ _ => rfl⟩
theorem sbcAby (a : Word) : Statement (.sbcAby a) := ⟨rfl, rfl, fun b1 b2 => (rfl : (decodeOp 0xF9 b1 b2).row = _)⟩
theorem nopFA : Statement .nopFA := ⟨rfl, rfl, fun _ _ => rfl⟩
theorem iscAby (a : Word) : Statement (.iscAby a) := ⟨rfl, rfl, fun b1 b2 => (rfl : (decodeOp 0xFB b1 b2).row = _)⟩
theorem nopFC (a : Word) : Statement (.nopFC a) := ⟨rfl, rfl, fun b1 b2 => (rfl : (decodeOp 0xFC b1 b2).row = _)⟩
theorem sbcAbx (a : Word) : Statement (.sbcAbx a) := ⟨rfl, rfl, fun b1 b2 => (rfl : (decodeOp 0xFD b1 b2).row = _)⟩
theorem incAbx (a : Word) : Statement (.incAbx a) := ⟨rfl, rfl, fun b1 b2 => (rfl : (decodeOp 0xFE b1 b2).row = _)⟩
theorem iscAbx (a : Word) : Statement (.iscAbx a) := ⟨rfl, rfl, fun b1 b2 => (rfl : (decodeOp 0xFF b1 b2).row = _)⟩

end Sys2Proof.Laws.Encoding
end

