-- ==== Sys2Proof/Laws/Codec.lean ====
section
/-! SUPPORT. The byte-level laws of decoding: a 16-bit operand and its two bytes, a displacement and its byte. -/

namespace Sys2Proof

/-- A 16-bit value is its two bytes put together. -/
@[simp] theorem wordOf_loByte_hiByte (w : Word) : wordOf (loByte w) (hiByte w) = w := by
  apply BitVec.eq_of_toNat_eq
  simp only [wordOf, loByte, hiByte, BitVec.toNat_append, BitVec.extractLsb'_toNat, Nat.shiftRight_zero]
  rw [Nat.shiftLeft_eq, Nat.shiftRight_eq_div_pow, ← Nat.shiftLeft_eq, ← Nat.shiftLeft_add_eq_or_of_lt (Nat.mod_lt _ (by decide))]
  rw [Nat.shiftLeft_eq]
  have := w.isLt
  omega

@[simp] theorem loByte_wordOf (lo hi : Byte) : loByte (wordOf lo hi) = lo := by
  apply BitVec.eq_of_toNat_eq
  simp only [wordOf, loByte, BitVec.toNat_append, BitVec.extractLsb'_toNat, Nat.shiftRight_zero]
  rw [← Nat.shiftLeft_add_eq_or_of_lt lo.isLt, Nat.shiftLeft_eq]
  have := lo.isLt
  omega

@[simp] theorem hiByte_wordOf (lo hi : Byte) : hiByte (wordOf lo hi) = hi := by
  apply BitVec.eq_of_toNat_eq
  simp only [wordOf, hiByte, BitVec.toNat_append, BitVec.extractLsb'_toNat, Nat.shiftRight_eq_div_pow]
  rw [← Nat.shiftLeft_add_eq_or_of_lt lo.isLt, Nat.shiftLeft_eq]
  have := lo.isLt
  have := hi.isLt
  omega

/-- A displacement that fits is read back from its byte. -/
theorem displacementOf_displacementByte {d : Int} (h : displacementFits d = true) :
    displacementOf (displacementByte d) = d := by
  simp only [displacementFits, Bool.and_eq_true, decide_eq_true_eq] at h
  simp only [displacementOf, displacementByte, BitVec.toInt_ofInt, Int.bmod_def]
  omega

@[simp] theorem displacementByte_displacementOf (b : Byte) : displacementByte (displacementOf b) = b := by
  simp [displacementOf, displacementByte]

/-- Every byte is a displacement that fits. -/
@[simp] theorem displacementFits_displacementOf (b : Byte) : displacementFits (displacementOf b) = true := by
  have h1 : b.toInt < 128 := BitVec.toInt_lt (x := b)
  have h2 : -128 ≤ b.toInt := BitVec.le_toInt (x := b)
  unfold displacementFits displacementOf
  rw [Bool.and_eq_true, decide_eq_true_eq, decide_eq_true_eq]
  omega

end Sys2Proof
end

