-- ==== Sys2Proof/Laws/Operands.lean ====
section
/-! SUPPORT. What the operand forms can do: an effective address never faults and changes nothing (its pointer reads are in
page 0); a value is read with one access; accesses do not depend on the CPU registers but for the PC a fault holds. -/

namespace Sys2Proof.Machine

/-! ## Effective addresses -/

theorem zeroPage_lt (z : Byte) : (zeroPage z).toNat < 0x2000 := by
  have := z.isLt
  simp only [zeroPage, BitVec.toNat_setWidth]
  omega

/-- A pointer in page 0 is two bytes of work RAM. -/
theorem readPointer_ok (z : Byte) (s : State) :
    readPointer z s = .ok (wordOf (wramRead s (zeroPage z)) (wramRead s (zeroPage (z + 1)))) s := by
  simp [readPointer, busRead_wram (zeroPage_lt _)]

@[simp] theorem fetchAddress_izx (z : Byte) (s : State) :
    fetchAddress (.izx z) s =
      .ok (wordOf (wramRead s (zeroPage (z + s.cpu.x))) (wramRead s (zeroPage (z + s.cpu.x + 1))), false) s := by
  simp [fetchAddress, readPointer_ok]

@[simp] theorem fetchAddress_izy (z : Byte) (s : State) :
    fetchAddress (.izy z) s =
      .ok (wordOf (wramRead s (zeroPage z)) (wramRead s (zeroPage (z + 1))) + s.cpu.y.setWidth 16,
        pageCross (wordOf (wramRead s (zeroPage z)) (wramRead s (zeroPage (z + 1))))
          (wordOf (wramRead s (zeroPage z)) (wramRead s (zeroPage (z + 1))) + s.cpu.y.setWidth 16)) s := by
  simp [fetchAddress, readPointer_ok]

/-- Every memory mode has an effective address in every state, and forming it changes nothing. -/
theorem fetchAddress_ok (m : MemOperand) (s : State) : ∃ e, fetchAddress m s = .ok e s := by
  cases m with
  | izx z => exact ⟨_, fetchAddress_izx z s⟩
  | izy z => exact ⟨_, fetchAddress_izy z s⟩
  | _ => exact ⟨_, rfl⟩

theorem fetchAddress_state {m : MemOperand} {s t : State} {e : Word × Bool} (h : fetchAddress m s = .ok e t) :
    t = s := by
  obtain ⟨e', he⟩ := fetchAddress_ok m s
  rw [he] at h
  cases h
  rfl

/-! ## Values -/

/-- A memory operand's value: the effective address, then one read. -/
theorem fetchValue_mem {m : MemOperand} {s : State} {e : Word × Bool} (h : fetchAddress m s = .ok e s) :
    fetchValue (.mem m) s = (busRead e.1 s).bind fun v t => .ok ⟨v, e.2, .mem e.1⟩ t := by
  simp [fetchValue, h]

/-- All that reading an operand can do to the state. -/
theorem fetchValue_frame {o : ValueOperand} {s t : State} {r : Fetched} (h : fetchValue o s = .ok r t) :
    ReadFrame s t := by
  cases o with
  | acc => cases h; exact .refl s
  | imm v => cases h; exact .refl s
  | mem m =>
    obtain ⟨e, he⟩ := fetchAddress_ok m s
    rw [fetchValue_mem he] at h
    obtain ⟨v, s1, h1, h2⟩ := Res.bind_eq_ok.1 h
    cases h2
    exact busRead_frame h1

/-- An operand's value is read exactly where `operandReadable` says. -/
theorem fetchValue_completes (o : ValueOperand) (s : State) :
    (∃ r t, fetchValue o s = .ok r t) ↔ operandReadable o s = true := by
  cases o with
  | acc => simp [fetchValue, operandReadable]
  | imm v => simp [fetchValue, operandReadable]
  | mem m =>
    obtain ⟨e, he⟩ := fetchAddress_ok m s
    rw [fetchValue_mem he]
    simp only [operandReadable, he]
    rw [← busRead_completes]
    constructor
    · rintro ⟨r, t, h⟩
      obtain ⟨v, s1, h1, -⟩ := Res.bind_eq_ok.1 h
      exact ⟨v, s1, h1⟩
    · rintro ⟨v, t, h⟩
      exact ⟨_, _, by rw [h]; rfl⟩

theorem fetchValue_faults {o : ValueOperand} {s : State} (h : operandReadable o s = false) :
    ∃ e, fetchValue o s = .fault e := by
  rcases Res.ok_or_fault (fetchValue o s) with ⟨b, t, hb⟩ | h'
  · have := (fetchValue_completes o s).1 ⟨b, t, hb⟩
    rw [h] at this
    cases this
  · exact h'

/-! ## The CPU registers do not matter to an access -/

section
variable {s t : State} (f : Cpu → Cpu)

@[simp] theorem ppuPeek_mapCpu (s : State) (a : Nat) : ppuPeek (s.mapCpu f) a = ppuPeek s a := rfl

theorem ppuRead_mapCpu {a : Nat} {b : Byte} (h : ppuRead a s = .ok b t) :
    ppuRead a (s.mapCpu f) = .ok b (t.mapCpu f) := by
  obtain ⟨rfl, hp⟩ := ppuRead_ok h
  simp [ppuRead, hp]

theorem portRead_mapCpu {a : Word} {b : Byte} (h : portRead a s = .ok b t) :
    portRead a (s.mapCpu f) = .ok b (t.mapCpu f) := by
  unfold portRead at h ⊢
  split at h
  · cases h; rfl
  · cases h; rfl
  · simp only [readData] at h ⊢
    split at h
    · rename_i hlt
      obtain ⟨b', s1, h1, h2⟩ := Res.bind_eq_ok.1 h
      obtain ⟨rfl, -⟩ := ppuRead_ok h1
      cases h2
      have hlt' : (s1.mapCpu f).ppu.dataAddr < 0x3F00 := hlt
      have hr : ppuRead (s1.mapCpu f).ppu.dataAddr (s1.mapCpu f) = _ := ppuRead_mapCpu f h1
      rw [if_pos hlt', hr]
      rfl
    · rename_i hlt
      obtain ⟨b', s1, h1, h2⟩ := Res.bind_eq_ok.1 h
      obtain ⟨rfl, -⟩ := ppuRead_ok h1
      cases h2
      have hlt' : ¬(s1.mapCpu f).ppu.dataAddr < 0x3F00 := hlt
      have hr : ppuRead ((s1.mapCpu f).ppu.dataAddr - 0x1000) (s1.mapCpu f) = _ := ppuRead_mapCpu f h1
      rw [if_neg hlt', hr]
      rfl
  · cases h

theorem busRead_mapCpu {a : Word} {b : Byte} (h : busRead a s = .ok b t) :
    busRead a (s.mapCpu f) = .ok b (t.mapCpu f) := by
  unfold busRead at h ⊢
  split at h
  · rename_i h1
    rw [if_pos h1]
    cases h
    rfl
  rename_i h1
  rw [if_neg h1]
  split at h
  · rename_i h2
    rw [if_pos h2]
    exact portRead_mapCpu f h
  rename_i h2
  rw [if_neg h2]
  split at h
  · rename_i h3
    rw [if_pos h3]
    unfold ioRead at h ⊢
    split at h <;> (cases h; rfl)
  rename_i h3
  rw [if_neg h3]
  split at h
  · cases h
  rename_i h4
  rw [if_neg h4]
  split at h
  · rename_i h5
    rw [if_pos h5]
    split at h
    · rename_i h6
      cases h
      simp [h6]
    · cases h
  · rename_i h5
    rw [if_neg h5]
    cases h
    rfl

theorem ppuWrite_mapCpu {a : Nat} {d : Byte} {u : Unit} (h : ppuWrite a d s = .ok u t) :
    ppuWrite a d (s.mapCpu f) = .ok u (t.mapCpu f) := by
  unfold ppuWrite at h ⊢
  split at h
  · rename_i h1
    rw [if_pos h1]
    split at h
    · rename_i h2
      have h2' : a < (s.mapCpu f).cart.chrSize := h2
      rw [if_pos h2']
      cases h
      rfl
    · cases h
  · rename_i h1
    rw [if_neg h1]
    split at h
    · rename_i h2
      rw [if_pos h2]
      cases h
      rfl
    · rename_i h2
      rw [if_neg h2]
      cases h
      rfl

theorem portWrite_mapCpu {a : Word} {d : Byte} {u : Unit} (h : portWrite a d s = .ok u t) :
    portWrite a d (s.mapCpu f) = .ok u (t.mapCpu f) := by
  unfold portWrite at h ⊢
  split at h
  · split at h
    · cases h
    · rename_i h1
      rw [if_neg h1]
      cases h
      rfl
  · cases h; rfl
  · cases h; rfl
  · cases h; rfl
  · cases h; rfl
  · cases h; rfl
  · cases h; rfl
  · simp only [writeData, State.mapCpu_ppu] at h ⊢
    obtain ⟨u', s1, h1, h2⟩ := Res.bind_eq_ok.1 h
    rw [ppuWrite_mapCpu f h1]
    cases h2
    rfl

theorem ioWrite_mapCpu (r : Nat) (d : Byte) (s : State) : ioWrite r d (s.mapCpu f) = (ioWrite r d s).mapCpu f := by
  unfold ioWrite
  split <;> rfl

/-- A write that completes does so whatever the CPU registers hold. -/
theorem busWrite_mapCpu {a : Word} {d : Byte} {u : Unit} (h : busWrite a d s = .ok u t) :
    busWrite a d (s.mapCpu f) = .ok u (t.mapCpu f) := by
  unfold busWrite at h ⊢
  split at h
  · rename_i h1
    rw [if_pos h1]
    cases h
    rfl
  rename_i h1
  rw [if_neg h1]
  split at h
  · rename_i h2
    rw [if_pos h2]
    exact portWrite_mapCpu f h
  rename_i h2
  rw [if_neg h2]
  split at h
  · rename_i h3
    rw [if_pos h3]
    obtain ⟨-, rfl⟩ := Res.ok.inj h
    rw [ioWrite_mapCpu]
  rename_i h3
  rw [if_neg h3]
  split at h
  · cases h
  rename_i h4
  rw [if_neg h4]
  split at h
  · rename_i h5
    rw [if_pos h5]
    split at h
    · rename_i h6
      have h6' : (s.mapCpu f).params.prgRamPresent = true := h6
      rw [if_pos h6']
      cases h
      rfl
    · cases h
  · rename_i h5
    rw [if_neg h5]
    simp only [prgWrite] at h ⊢
    split at h
    · rename_i h6
      have h6' : a.toNat - 0x8000 < (s.mapCpu f).cart.prgSize := h6
      rw [if_pos h6']
      cases h
      rfl
    · cases h

@[simp] theorem writable_mapCpu (s : State) (a : Word) (d : Byte) : writable (s.mapCpu f) a d = writable s a d := rfl

@[simp] theorem readable_mapCpu (s : State) (a : Word) : readable (s.mapCpu f) a = readable s a := rfl

end

/-! ## The jump pointer -/

/-- A jump pointer is read exactly where `pointerReadable` says. -/
theorem readJumpPointer_completes (p : Word) (s : State) :
    (∃ w t, readJumpPointer p s = .ok w t) ↔ pointerReadable p s = true := by
  unfold readJumpPointer pointerReadable
  rcases Res.ok_or_fault (busRead p s) with ⟨lo, s1, h1⟩ | ⟨e, h1⟩
  · simp only [h1, Res.bind_ok]
    rw [← busRead_completes]
    constructor
    · rintro ⟨w, t, h⟩
      obtain ⟨hi, s2, h2, -⟩ := Res.bind_eq_ok.1 h
      exact ⟨hi, s2, h2⟩
    · rintro ⟨hi, t, h⟩
      exact ⟨_, _, by rw [h]; rfl⟩
  · simp [h1]

theorem readJumpPointer_frame {p w : Word} {s t : State} (h : readJumpPointer p s = .ok w t) : ReadFrame s t := by
  unfold readJumpPointer at h
  obtain ⟨lo, s1, h1, h2⟩ := Res.bind_eq_ok.1 h
  obtain ⟨hi, s2, h3, h4⟩ := Res.bind_eq_ok.1 h2
  cases h4
  exact (busRead_frame h1).trans (busRead_frame h3)

end Sys2Proof.Machine
end

