-- ==== Sys2Proof/Laws/Rows.lean ====
section
/-! SUPPORT. What `exec` does with the rows of each mnemonic: the mnemonic's one shared form, applied to the row's operand.
The dispatch is split here once, into `rowForm`; a proof about a mnemonic cites its lemma and never splits it again. -/

namespace Sys2Proof.Machine

/-- The shared form of a mnemonic, applied to an operand of the shape its rows have; for another shape, which no row has,
the fault of a faulting row. -/
def rowForm (m : Mnemonic) (i : Instr) (o : Operand) (s : State) : Host.Outcome State Fault Refusal :=
  match m, o with
  | .lda, .value o => ldaForm i o s
  | .ldx, .value o => ldxForm i o s
  | .ldy, .value o => ldyForm i o s
  | .lax, .value o => laxForm i o s
  | .and, .value o => andForm i o s
  | .ora, .value o => oraForm i o s
  | .eor, .value o => eorForm i o s
  | .bit, .value o => bitForm i o s
  | .adc, .value o => adcForm i o s
  | .sbc, .value o => sbcForm i o s
  | .cmp, .value o => cmpForm i o s
  | .cpx, .value o => cpxForm i o s
  | .cpy, .value o => cpyForm i o s
  | .anc, .value o => ancForm i o s
  | .alr, .value o => alrForm i o s
  | .arr, .value o => arrForm i o s
  | .axs, .value o => axsForm i o s
  | .inc, .value o => incForm i o s
  | .dec, .value o => decForm i o s
  | .asl, .value o => aslForm i o s
  | .lsr, .value o => lsrForm i o s
  | .rol, .value o => rolForm i o s
  | .ror, .value o => rorForm i o s
  | .slo, .value o => sloForm i o s
  | .rla, .value o => rlaForm i o s
  | .sre, .value o => sreForm i o s
  | .rra, .value o => rraForm i o s
  | .dcp, .value o => dcpForm i o s
  | .isc, .value o => iscForm i o s
  | .sta, .value (.mem m) => staForm i m s
  | .stx, .value (.mem m) => stxForm i m s
  | .sty, .value (.mem m) => styForm i m s
  | .sax, .value (.mem m) => saxForm i m s
  | .tax, .imp => taxForm i s
  | .tay, .imp => tayForm i s
  | .txa, .imp => txaForm i s
  | .tya, .imp => tyaForm i s
  | .tsx, .imp => tsxForm i s
  | .txs, .imp => txsForm i s
  | .pha, .imp => phaForm i s
  | .php, .imp => phpForm i s
  | .pla, .imp => plaForm i s
  | .plp, .imp => plpForm i s
  | .inx, .imp => inxForm i s
  | .iny, .imp => inyForm i s
  | .dex, .imp => dexForm i s
  | .dey, .imp => deyForm i s
  | .rts, .imp => rtsForm i s
  | .rti, .imp => rtiForm i s
  | .brk, .imp => brkForm i s
  | .clc, .imp => clcForm i s
  | .sec, .imp => secForm i s
  | .cli, .imp => cliForm i s
  | .sei, .imp => seiForm i s
  | .cld, .imp => cldForm i s
  | .sed, .imp => sedForm i s
  | .clv, .imp => clvForm i s
  | .bcc, .rel d => bccForm i d s
  | .bcs, .rel d => bcsForm i d s
  | .beq, .rel d => beqForm i d s
  | .bne, .rel d => bneForm i d s
  | .bmi, .rel d => bmiForm i d s
  | .bpl, .rel d => bplForm i d s
  | .bvc, .rel d => bvcForm i d s
  | .bvs, .rel d => bvsForm i d s
  | .jmp, .value (.mem (.abs a)) => jmpAbsForm i a s
  | .jmp, .ind p => jmpIndForm i p s
  | .jsr, .value (.mem (.abs a)) => jsrForm i a s
  | .nop, .imp => nopForm i s
  | .nop, .value o => nopReadForm i o s
  | _, _ => runFault s

/-- The operand has the shape that the rows of the mnemonic have. -/
def rowShape (m : Mnemonic) (o : Operand) : Bool :=
  match m, o with
  | .lda, .value _ | .ldx, .value _ | .ldy, .value _ | .lax, .value _ | .and, .value _ | .ora, .value _ | .eor, .value _ | .bit, .value _ | .adc, .value _ | .sbc, .value _ | .cmp, .value _ | .cpx, .value _ | .cpy, .value _ | .anc, .value _
  | .alr, .value _ | .arr, .value _ | .axs, .value _ | .inc, .value _ | .dec, .value _ | .asl, .value _ | .lsr, .value _ | .rol, .value _ | .ror, .value _ | .slo, .value _ | .rla, .value _ | .sre, .value _ | .rra, .value _ | .dcp, .value _ | .isc, .value _ => true
  | .sta, .value (.mem _) | .stx, .value (.mem _) | .sty, .value (.mem _) | .sax, .value (.mem _) => true
  | .tax, .imp | .tay, .imp | .txa, .imp | .tya, .imp | .tsx, .imp | .txs, .imp | .pha, .imp | .php, .imp | .pla, .imp | .plp, .imp | .inx, .imp | .iny, .imp
  | .dex, .imp | .dey, .imp | .rts, .imp | .rti, .imp | .brk, .imp | .clc, .imp | .sec, .imp | .cli, .imp | .sei, .imp | .cld, .imp | .sed, .imp | .clv, .imp => true
  | .bcc, .rel _ | .bcs, .rel _ | .beq, .rel _ | .bne, .rel _ | .bmi, .rel _ | .bpl, .rel _ | .bvc, .rel _ | .bvs, .rel _ => true
  | .jmp, .value (.mem (.abs _)) | .jmp, .ind _ | .jsr, .value (.mem (.abs _)) | .nop, .imp | .nop, .value _ => true
  | .jam, _ | .xaa, _ | .ahx, _ | .tas, _ | .shy, _ | .shx, _ | .lxa, _ | .las, _ => true
  | _, _ => false

/-- Each arm of the dispatch is its row's form. -/
theorem exec_eq_rowForm (i : Instr) (s : State) : exec i s = rowForm i.mnemonic i i.operand s := by
  cases i <;> rfl

/-- Each row's operand has its mnemonic's shape. -/
theorem rowShape_operand (i : Instr) : rowShape i.mnemonic i.operand = true := by
  cases i <;> rfl

variable {i : Instr}

theorem exec_of_lda (h : i.mnemonic = .lda) : ∃ o, i.operand = .value o ∧ ∀ s, exec i s = ldaForm i o s := by
  have hs := rowShape_operand i
  have he := exec_eq_rowForm i
  rw [h] at hs he
  cases ho : i.operand <;> rw [ho] at hs he <;> first | exact ⟨_, rfl, he⟩ | cases hs

theorem exec_of_ldx (h : i.mnemonic = .ldx) : ∃ o, i.operand = .value o ∧ ∀ s, exec i s = ldxForm i o s := by
  have hs := rowShape_operand i
  have he := exec_eq_rowForm i
  rw [h] at hs he
  cases ho : i.operand <;> rw [ho] at hs he <;> first | exact ⟨_, rfl, he⟩ | cases hs

theorem exec_of_ldy (h : i.mnemonic = .ldy) : ∃ o, i.operand = .value o ∧ ∀ s, exec i s = ldyForm i o s := by
  have hs := rowShape_operand i
  have he := exec_eq_rowForm i
  rw [h] at hs he
  cases ho : i.operand <;> rw [ho] at hs he <;> first | exact ⟨_, rfl, he⟩ | cases hs

theorem exec_of_lax (h : i.mnemonic = .lax) : ∃ o, i.operand = .value o ∧ ∀ s, exec i s = laxForm i o s := by
  have hs := rowShape_operand i
  have he := exec_eq_rowForm i
  rw [h] at hs he
  cases ho : i.operand <;> rw [ho] at hs he <;> first | exact ⟨_, rfl, he⟩ | cases hs

theorem exec_of_and (h : i.mnemonic = .and) : ∃ o, i.operand = .value o ∧ ∀ s, exec i s = andForm i o s := by
  have hs := rowShape_operand i
  have he := exec_eq_rowForm i
  rw [h] at hs he
  cases ho : i.operand <;> rw [ho] at hs he <;> first | exact ⟨_, rfl, he⟩ | cases hs

theorem exec_of_ora (h : i.mnemonic = .ora) : ∃ o, i.operand = .value o ∧ ∀ s, exec i s = oraForm i o s := by
  have hs := rowShape_operand i
  have he := exec_eq_rowForm i
  rw [h] at hs he
  cases ho : i.operand <;> rw [ho] at hs he <;> first | exact ⟨_, rfl, he⟩ | cases hs

theorem exec_of_eor (h : i.mnemonic = .eor) : ∃ o, i.operand = .value o ∧ ∀ s, exec i s = eorForm i o s := by
  have hs := rowShape_operand i
  have he := exec_eq_rowForm i
  rw [h] at hs he
  cases ho : i.operand <;> rw [ho] at hs he <;> first | exact ⟨_, rfl, he⟩ | cases hs

theorem exec_of_bit (h : i.mnemonic = .bit) : ∃ o, i.operand = .value o ∧ ∀ s, exec i s = bitForm i o s := by
  have hs := rowShape_operand i
  have he := exec_eq_rowForm i
  rw [h] at hs he
  cases ho : i.operand <;> rw [ho] at hs he <;> first | exact ⟨_, rfl, he⟩ | cases hs

theorem exec_of_adc (h : i.mnemonic = .adc) : ∃ o, i.operand = .value o ∧ ∀ s, exec i s = adcForm i o s := by
  have hs := rowShape_operand i
  have he := exec_eq_rowForm i
  rw [h] at hs he
  cases ho : i.operand <;> rw [ho] at hs he <;> first | exact ⟨_, rfl, he⟩ | cases hs

theorem exec_of_sbc (h : i.mnemonic = .sbc) : ∃ o, i.operand = .value o ∧ ∀ s, exec i s = sbcForm i o s := by
  have hs := rowShape_operand i
  have he := exec_eq_rowForm i
  rw [h] at hs he
  cases ho : i.operand <;> rw [ho] at hs he <;> first | exact ⟨_, rfl, he⟩ | cases hs

theorem exec_of_cmp (h : i.mnemonic = .cmp) : ∃ o, i.operand = .value o ∧ ∀ s, exec i s = cmpForm i o s := by
  have hs := rowShape_operand i
  have he := exec_eq_rowForm i
  rw [h] at hs he
  cases ho : i.operand <;> rw [ho] at hs he <;> first | exact ⟨_, rfl, he⟩ | cases hs

theorem exec_of_cpx (h : i.mnemonic = .cpx) : ∃ o, i.operand = .value o ∧ ∀ s, exec i s = cpxForm i o s := by
  have hs := rowShape_operand i
  have he := exec_eq_rowForm i
  rw [h] at hs he
  cases ho : i.operand <;> rw [ho] at hs he <;> first | exact ⟨_, rfl, he⟩ | cases hs

theorem exec_of_cpy (h : i.mnemonic = .cpy) : ∃ o, i.operand = .value o ∧ ∀ s, exec i s = cpyForm i o s := by
  have hs := rowShape_operand i
  have he := exec_eq_rowForm i
  rw [h] at hs he
  cases ho : i.operand <;> rw [ho] at hs he <;> first | exact ⟨_, rfl, he⟩ | cases hs

theorem exec_of_anc (h : i.mnemonic = .anc) : ∃ o, i.operand = .value o ∧ ∀ s, exec i s = ancForm i o s := by
  have hs := rowShape_operand i
  have he := exec_eq_rowForm i
  rw [h] at hs he
  cases ho : i.operand <;> rw [ho] at hs he <;> first | exact ⟨_, rfl, he⟩ | cases hs

theorem exec_of_alr (h : i.mnemonic = .alr) : ∃ o, i.operand = .value o ∧ ∀ s, exec i s = alrForm i o s := by
  have hs := rowShape_operand i
  have he := exec_eq_rowForm i
  rw [h] at hs he
  cases ho : i.operand <;> rw [ho] at hs he <;> first | exact ⟨_, rfl, he⟩ | cases hs

theorem exec_of_arr (h : i.mnemonic = .arr) : ∃ o, i.operand = .value o ∧ ∀ s, exec i s = arrForm i o s := by
  have hs := rowShape_operand i
  have he := exec_eq_rowForm i
  rw [h] at hs he
  cases ho : i.operand <;> rw [ho] at hs he <;> first | exact ⟨_, rfl, he⟩ | cases hs

theorem exec_of_axs (h : i.mnemonic = .axs) : ∃ o, i.operand = .value o ∧ ∀ s, exec i s = axsForm i o s := by
  have hs := rowShape_operand i
  have he := exec_eq_rowForm i
  rw [h] at hs he
  cases ho : i.operand <;> rw [ho] at hs he <;> first | exact ⟨_, rfl, he⟩ | cases hs

theorem exec_of_inc (h : i.mnemonic = .inc) : ∃ o, i.operand = .value o ∧ ∀ s, exec i s = incForm i o s := by
  have hs := rowShape_operand i
  have he := exec_eq_rowForm i
  rw [h] at hs he
  cases ho : i.operand <;> rw [ho] at hs he <;> first | exact ⟨_, rfl, he⟩ | cases hs

theorem exec_of_dec (h : i.mnemonic = .dec) : ∃ o, i.operand = .value o ∧ ∀ s, exec i s = decForm i o s := by
  have hs := rowShape_operand i
  have he := exec_eq_rowForm i
  rw [h] at hs he
  cases ho : i.operand <;> rw [ho] at hs he <;> first | exact ⟨_, rfl, he⟩ | cases hs

theorem exec_of_asl (h : i.mnemonic = .asl) : ∃ o, i.operand = .value o ∧ ∀ s, exec i s = aslForm i o s := by
  have hs := rowShape_operand i
  have he := exec_eq_rowForm i
  rw [h] at hs he
  cases ho : i.operand <;> rw [ho] at hs he <;> first | exact ⟨_, rfl, he⟩ | cases hs

theorem exec_of_lsr (h : i.mnemonic = .lsr) : ∃ o, i.operand = .value o ∧ ∀ s, exec i s = lsrForm i o s := by
  have hs := rowShape_operand i
  have he := exec_eq_rowForm i
  rw [h] at hs he
  cases ho : i.operand <;> rw [ho] at hs he <;> first | exact ⟨_, rfl, he⟩ | cases hs

theorem exec_of_rol (h : i.mnemonic = .rol) : ∃ o, i.operand = .value o ∧ ∀ s, exec i s = rolForm i o s := by
  have hs := rowShape_operand i
  have he := exec_eq_rowForm i
  rw [h] at hs he
  cases ho : i.operand <;> rw [ho] at hs he <;> first | exact ⟨_, rfl, he⟩ | cases hs

theorem exec_of_ror (h : i.mnemonic = .ror) : ∃ o, i.operand = .value o ∧ ∀ s, exec i s = rorForm i o s := by
  have hs := rowShape_operand i
  have he := exec_eq_rowForm i
  rw [h] at hs he
  cases ho : i.operand <;> rw [ho] at hs he <;> first | exact ⟨_, rfl, he⟩ | cases hs

theorem exec_of_slo (h : i.mnemonic = .slo) : ∃ o, i.operand = .value o ∧ ∀ s, exec i s = sloForm i o s := by
  have hs := rowShape_operand i
  have he := exec_eq_rowForm i
  rw [h] at hs he
  cases ho : i.operand <;> rw [ho] at hs he <;> first | exact ⟨_, rfl, he⟩ | cases hs

theorem exec_of_rla (h : i.mnemonic = .rla) : ∃ o, i.operand = .value o ∧ ∀ s, exec i s = rlaForm i o s := by
  have hs := rowShape_operand i
  have he := exec_eq_rowForm i
  rw [h] at hs he
  cases ho : i.operand <;> rw [ho] at hs he <;> first | exact ⟨_, rfl, he⟩ | cases hs

theorem exec_of_sre (h : i.mnemonic = .sre) : ∃ o, i.operand = .value o ∧ ∀ s, exec i s = sreForm i o s := by
  have hs := rowShape_operand i
  have he := exec_eq_rowForm i
  rw [h] at hs he
  cases ho : i.operand <;> rw [ho] at hs he <;> first | exact ⟨_, rfl, he⟩ | cases hs

theorem exec_of_rra (h : i.mnemonic = .rra) : ∃ o, i.operand = .value o ∧ ∀ s, exec i s = rraForm i o s := by
  have hs := rowShape_operand i
  have he := exec_eq_rowForm i
  rw [h] at hs he
  cases ho : i.operand <;> rw [ho] at hs he <;> first | exact ⟨_, rfl, he⟩ | cases hs

theorem exec_of_dcp (h : i.mnemonic = .dcp) : ∃ o, i.operand = .value o ∧ ∀ s, exec i s = dcpForm i o s := by
  have hs := rowShape_operand i
  have he := exec_eq_rowForm i
  rw [h] at hs he
  cases ho : i.operand <;> rw [ho] at hs he <;> first | exact ⟨_, rfl, he⟩ | cases hs

theorem exec_of_isc (h : i.mnemonic = .isc) : ∃ o, i.operand = .value o ∧ ∀ s, exec i s = iscForm i o s := by
  have hs := rowShape_operand i
  have he := exec_eq_rowForm i
  rw [h] at hs he
  cases ho : i.operand <;> rw [ho] at hs he <;> first | exact ⟨_, rfl, he⟩ | cases hs

theorem exec_of_sta (h : i.mnemonic = .sta) : ∃ m, i.operand = .value (.mem m) ∧ ∀ s, exec i s = staForm i m s := by
  have hs := rowShape_operand i
  have he := exec_eq_rowForm i
  rw [h] at hs he
  rcases ho : i.operand with _ | (_ | _ | m) | _ | _ <;> rw [ho] at hs he <;> first | exact ⟨_, rfl, he⟩ | cases hs

theorem exec_of_stx (h : i.mnemonic = .stx) : ∃ m, i.operand = .value (.mem m) ∧ ∀ s, exec i s = stxForm i m s := by
  have hs := rowShape_operand i
  have he := exec_eq_rowForm i
  rw [h] at hs he
  rcases ho : i.operand with _ | (_ | _ | m) | _ | _ <;> rw [ho] at hs he <;> first | exact ⟨_, rfl, he⟩ | cases hs

theorem exec_of_sty (h : i.mnemonic = .sty) : ∃ m, i.operand = .value (.mem m) ∧ ∀ s, exec i s = styForm i m s := by
  have hs := rowShape_operand i
  have he := exec_eq_rowForm i
  rw [h] at hs he
  rcases ho : i.operand with _ | (_ | _ | m) | _ | _ <;> rw [ho] at hs he <;> first | exact ⟨_, rfl, he⟩ | cases hs

theorem exec_of_sax (h : i.mnemonic = .sax) : ∃ m, i.operand = .value (.mem m) ∧ ∀ s, exec i s = saxForm i m s := by
  have hs := rowShape_operand i
  have he := exec_eq_rowForm i
  rw [h] at hs he
  rcases ho : i.operand with _ | (_ | _ | m) | _ | _ <;> rw [ho] at hs he <;> first | exact ⟨_, rfl, he⟩ | cases hs

theorem exec_of_tax (h : i.mnemonic = .tax) : i.operand = .imp ∧ ∀ s, exec i s = taxForm i s := by
  have hs := rowShape_operand i
  have he := exec_eq_rowForm i
  rw [h] at hs he
  cases ho : i.operand <;> rw [ho] at hs he <;> first | exact ⟨rfl, he⟩ | cases hs

theorem exec_of_tay (h : i.mnemonic = .tay) : i.operand = .imp ∧ ∀ s, exec i s = tayForm i s := by
  have hs := rowShape_operand i
  have he := exec_eq_rowForm i
  rw [h] at hs he
  cases ho : i.operand <;> rw [ho] at hs he <;> first | exact ⟨rfl, he⟩ | cases hs

theorem exec_of_txa (h : i.mnemonic = .txa) : i.operand = .imp ∧ ∀ s, exec i s = txaForm i s := by
  have hs := rowShape_operand i
  have he := exec_eq_rowForm i
  rw [h] at hs he
  cases ho : i.operand <;> rw [ho] at hs he <;> first | exact ⟨rfl, he⟩ | cases hs

theorem exec_of_tya (h : i.mnemonic = .tya) : i.operand = .imp ∧ ∀ s, exec i s = tyaForm i s := by
  have hs := rowShape_operand i
  have he := exec_eq_rowForm i
  rw [h] at hs he
  cases ho : i.operand <;> rw [ho] at hs he <;> first | exact ⟨rfl, he⟩ | cases hs

theorem exec_of_tsx (h : i.mnemonic = .tsx) : i.operand = .imp ∧ ∀ s, exec i s = tsxForm i s := by
  have hs := rowShape_operand i
  have he := exec_eq_rowForm i
  rw [h] at hs he
  cases ho : i.operand <;> rw [ho] at hs he <;> first | exact ⟨rfl, he⟩ | cases hs

theorem exec_of_txs (h : i.mnemonic = .txs) : i.operand = .imp ∧ ∀ s, exec i s = txsForm i s := by
  have hs := rowShape_operand i
  have he := exec_eq_rowForm i
  rw [h] at hs he
  cases ho : i.operand <;> rw [ho] at hs he <;> first | exact ⟨rfl, he⟩ | cases hs

theorem exec_of_pha (h : i.mnemonic = .pha) : i.operand = .imp ∧ ∀ s, exec i s = phaForm i s := by
  have hs := rowShape_operand i
  have he := exec_eq_rowForm i
  rw [h] at hs he
  cases ho : i.operand <;> rw [ho] at hs he <;> first | exact ⟨rfl, he⟩ | cases hs

theorem exec_of_php (h : i.mnemonic = .php) : i.operand = .imp ∧ ∀ s, exec i s = phpForm i s := by
  have hs := rowShape_operand i
  have he := exec_eq_rowForm i
  rw [h] at hs he
  cases ho : i.operand <;> rw [ho] at hs he <;> first | exact ⟨rfl, he⟩ | cases hs

theorem exec_of_pla (h : i.mnemonic = .pla) : i.operand = .imp ∧ ∀ s, exec i s = plaForm i s := by
  have hs := rowShape_operand i
  have he := exec_eq_rowForm i
  rw [h] at hs he
  cases ho : i.operand <;> rw [ho] at hs he <;> first | exact ⟨rfl, he⟩ | cases hs

theorem exec_of_plp (h : i.mnemonic = .plp) : i.operand = .imp ∧ ∀ s, exec i s = plpForm i s := by
  have hs := rowShape_operand i
  have he := exec_eq_rowForm i
  rw [h] at hs he
  cases ho : i.operand <;> rw [ho] at hs he <;> first | exact ⟨rfl, he⟩ | cases hs

theorem exec_of_inx (h : i.mnemonic = .inx) : i.operand = .imp ∧ ∀ s, exec i s = inxForm i s := by
  have hs := rowShape_operand i
  have he := exec_eq_rowForm i
  rw [h] at hs he
  cases ho : i.operand <;> rw [ho] at hs he <;> first | exact ⟨rfl, he⟩ | cases hs

theorem exec_of_iny (h : i.mnemonic = .iny) : i.operand = .imp ∧ ∀ s, exec i s = inyForm i s := by
  have hs := rowShape_operand i
  have he := exec_eq_rowForm i
  rw [h] at hs he
  cases ho : i.operand <;> rw [ho] at hs he <;> first | exact ⟨rfl, he⟩ | cases hs

theorem exec_of_dex (h : i.mnemonic = .dex) : i.operand = .imp ∧ ∀ s, exec i s = dexForm i s := by
  have hs := rowShape_operand i
  have he := exec_eq_rowForm i
  rw [h] at hs he
  cases ho : i.operand <;> rw [ho] at hs he <;> first | exact ⟨rfl, he⟩ | cases hs

theorem exec_of_dey (h : i.mnemonic = .dey) : i.operand = .imp ∧ ∀ s, exec i s = deyForm i s := by
  have hs := rowShape_operand i
  have he := exec_eq_rowForm i
  rw [h] at hs he
  cases ho : i.operand <;> rw [ho] at hs he <;> first | exact ⟨rfl, he⟩ | cases hs

theorem exec_of_rts (h : i.mnemonic = .rts) : i.operand = .imp ∧ ∀ s, exec i s = rtsForm i s := by
  have hs := rowShape_operand i
  have he := exec_eq_rowForm i
  rw [h] at hs he
  cases ho : i.operand <;> rw [ho] at hs he <;> first | exact ⟨rfl, he⟩ | cases hs

theorem exec_of_rti (h : i.mnemonic = .rti) : i.operand = .imp ∧ ∀ s, exec i s = rtiForm i s := by
  have hs := rowShape_operand i
  have he := exec_eq_rowForm i
  rw [h] at hs he
  cases ho : i.operand <;> rw [ho] at hs he <;> first | exact ⟨rfl, he⟩ | cases hs

theorem exec_of_brk (h : i.mnemonic = .brk) : i.operand = .imp ∧ ∀ s, exec i s = brkForm i s := by
  have hs := rowShape_operand i
  have he := exec_eq_rowForm i
  rw [h] at hs he
  cases ho : i.operand <;> rw [ho] at hs he <;> first | exact ⟨rfl, he⟩ | cases hs

theorem exec_of_clc (h : i.mnemonic = .clc) : i.operand = .imp ∧ ∀ s, exec i s = clcForm i s := by
  have hs := rowShape_operand i
  have he := exec_eq_rowForm i
  rw [h] at hs he
  cases ho : i.operand <;> rw [ho] at hs he <;> first | exact ⟨rfl, he⟩ | cases hs

theorem exec_of_sec (h : i.mnemonic = .sec) : i.operand = .imp ∧ ∀ s, exec i s = secForm i s := by
  have hs := rowShape_operand i
  have he := exec_eq_rowForm i
  rw [h] at hs he
  cases ho : i.operand <;> rw [ho] at hs he <;> first | exact ⟨rfl, he⟩ | cases hs

theorem exec_of_cli (h : i.mnemonic = .cli) : i.operand = .imp ∧ ∀ s, exec i s = cliForm i s := by
  have hs := rowShape_operand i
  have he := exec_eq_rowForm i
  rw [h] at hs he
  cases ho : i.operand <;> rw [ho] at hs he <;> first | exact ⟨rfl, he⟩ | cases hs

theorem exec_of_sei (h : i.mnemonic = .sei) : i.operand = .imp ∧ ∀ s, exec i s = seiForm i s := by
  have hs := rowShape_operand i
  have he := exec_eq_rowForm i
  rw [h] at hs he
  cases ho : i.operand <;> rw [ho] at hs he <;> first | exact ⟨rfl, he⟩ | cases hs

theorem exec_of_cld (h : i.mnemonic = .cld) : i.operand = .imp ∧ ∀ s, exec i s = cldForm i s := by
  have hs := rowShape_operand i
  have he := exec_eq_rowForm i
  rw [h] at hs he
  cases ho : i.operand <;> rw [ho] at hs he <;> first | exact ⟨rfl, he⟩ | cases hs

theorem exec_of_sed (h : i.mnemonic = .sed) : i.operand = .imp ∧ ∀ s, exec i s = sedForm i s := by
  have hs := rowShape_operand i
  have he := exec_eq_rowForm i
  rw [h] at hs he
  cases ho : i.operand <;> rw [ho] at hs he <;> first | exact ⟨rfl, he⟩ | cases hs

theorem exec_of_clv (h : i.mnemonic = .clv) : i.operand = .imp ∧ ∀ s, exec i s = clvForm i s := by
  have hs := rowShape_operand i
  have he := exec_eq_rowForm i
  rw [h] at hs he
  cases ho : i.operand <;> rw [ho] at hs he <;> first | exact ⟨rfl, he⟩ | cases hs

theorem exec_of_bcc (h : i.mnemonic = .bcc) : ∃ d, i.operand = .rel d ∧ ∀ s, exec i s = bccForm i d s := by
  have hs := rowShape_operand i
  have he := exec_eq_rowForm i
  rw [h] at hs he
  cases ho : i.operand <;> rw [ho] at hs he <;> first | exact ⟨_, rfl, he⟩ | cases hs

theorem exec_of_bcs (h : i.mnemonic = .bcs) : ∃ d, i.operand = .rel d ∧ ∀ s, exec i s = bcsForm i d s := by
  have hs := rowShape_operand i
  have he := exec_eq_rowForm i
  rw [h] at hs he
  cases ho : i.operand <;> rw [ho] at hs he <;> first | exact ⟨_, rfl, he⟩ | cases hs

theorem exec_of_beq (h : i.mnemonic = .beq) : ∃ d, i.operand = .rel d ∧ ∀ s, exec i s = beqForm i d s := by
  have hs := rowShape_operand i
  have he := exec_eq_rowForm i
  rw [h] at hs he
  cases ho : i.operand <;> rw [ho] at hs he <;> first | exact ⟨_, rfl, he⟩ | cases hs

theorem exec_of_bne (h : i.mnemonic = .bne) : ∃ d, i.operand = .rel d ∧ ∀ s, exec i s = bneForm i d s := by
  have hs := rowShape_operand i
  have he := exec_eq_rowForm i
  rw [h] at hs he
  cases ho : i.operand <;> rw [ho] at hs he <;> first | exact ⟨_, rfl, he⟩ | cases hs

theorem exec_of_bmi (h : i.mnemonic = .bmi) : ∃ d, i.operand = .rel d ∧ ∀ s, exec i s = bmiForm i d s := by
  have hs := rowShape_operand i
  have he := exec_eq_rowForm i
  rw [h] at hs he
  cases ho : i.operand <;> rw [ho] at hs he <;> first | exact ⟨_, rfl, he⟩ | cases hs

theorem exec_of_bpl (h : i.mnemonic = .bpl) : ∃ d, i.operand = .rel d ∧ ∀ s, exec i s = bplForm i d s := by
  have hs := rowShape_operand i
  have he := exec_eq_rowForm i
  rw [h] at hs he
  cases ho : i.operand <;> rw [ho] at hs he <;> first | exact ⟨_, rfl, he⟩ | cases hs

theorem exec_of_bvc (h : i.mnemonic = .bvc) : ∃ d, i.operand = .rel d ∧ ∀ s, exec i s = bvcForm i d s := by
  have hs := rowShape_operand i
  have he := exec_eq_rowForm i
  rw [h] at hs he
  cases ho : i.operand <;> rw [ho] at hs he <;> first | exact ⟨_, rfl, he⟩ | cases hs

theorem exec_of_bvs (h : i.mnemonic = .bvs) : ∃ d, i.operand = .rel d ∧ ∀ s, exec i s = bvsForm i d s := by
  have hs := rowShape_operand i
  have he := exec_eq_rowForm i
  rw [h] at hs he
  cases ho : i.operand <;> rw [ho] at hs he <;> first | exact ⟨_, rfl, he⟩ | cases hs

theorem exec_of_jmp (h : i.mnemonic = .jmp) :
    (∃ a, i.operand = .value (.mem (.abs a)) ∧ ∀ s, exec i s = jmpAbsForm i a s) ∨
    (∃ p, i.operand = .ind p ∧ ∀ s, exec i s = jmpIndForm i p s) := by
  have hs := rowShape_operand i
  have he := exec_eq_rowForm i
  rw [h] at hs he
  rcases ho : i.operand with _ | (_ | _ | (_ | _ | _ | a | _ | _ | _ | _)) | _ | _ <;> rw [ho] at hs he <;>
    first | exact .inl ⟨_, rfl, he⟩ | exact .inr ⟨_, rfl, he⟩ | cases hs

theorem exec_of_jsr (h : i.mnemonic = .jsr) :
    ∃ a, i.operand = .value (.mem (.abs a)) ∧ ∀ s, exec i s = jsrForm i a s := by
  have hs := rowShape_operand i
  have he := exec_eq_rowForm i
  rw [h] at hs he
  rcases ho : i.operand with _ | (_ | _ | (_ | _ | _ | a | _ | _ | _ | _)) | _ | _ <;> rw [ho] at hs he <;>
    first | exact ⟨_, rfl, he⟩ | cases hs

theorem exec_of_nop (h : i.mnemonic = .nop) :
    (i.operand = .imp ∧ ∀ s, exec i s = nopForm i s) ∨
    (∃ o, i.operand = .value o ∧ ∀ s, exec i s = nopReadForm i o s) := by
  have hs := rowShape_operand i
  have he := exec_eq_rowForm i
  rw [h] at hs he
  cases ho : i.operand <;> rw [ho] at hs he <;>
    first | exact .inl ⟨rfl, he⟩ | exact .inr ⟨_, rfl, he⟩ | cases hs

/-- The faulting rows are those of eight mnemonics (44_unofficial.md R397 to R404). -/
theorem faults_iff (i : Instr) :
    i.faults = true ↔ i.mnemonic ∈ [.jam, .xaa, .ahx, .tas, .shy, .shx, .lxa, .las] := by
  cases i <;> simp [Instr.faults, Instr.mnemonic, Instr.row, Status.faults]

/-- Every faulting row stops at once (R397 to R404). -/
theorem exec_of_faults (h : i.faults = true) (s : State) : exec i s = runFault s := by
  have he := exec_eq_rowForm i s
  have hm := (faults_iff i).1 h
  simp only [List.mem_cons, List.not_mem_nil, or_false] at hm
  rcases hm with hm | hm | hm | hm | hm | hm | hm | hm <;> (rw [hm] at he; exact he)

/-! ## Facts of the rows -/

/-- An instruction has one, two or three bytes (30_encoding.md R168). -/
theorem length_cases (i : Instr) : i.length = 1 ∨ i.length = 2 ∨ i.length = 3 := by
  unfold Instr.length
  cases i.row.mode <;> simp [Mode.length]

/-- Every row has at least two base cycles (R168). -/
theorem two_le_baseCycles (i : Instr) : 2 ≤ i.row.baseCycles := by
  cases i <;> simp [Instr.row]

/-- The mnemonics whose ABX, ABY and IZY rows add the page-cross cycle (40_addressing_modes.md R213). -/
def addsCross (m : Mnemonic) : Bool :=
  match m with
  | .lda | .ldx | .ldy | .adc | .sbc | .and | .ora | .eor | .cmp | .lax | .nop | .las => true
  | _ => false

/-- No other mnemonic has a row with the page-cross cycle (R213). -/
theorem pageCross_addsCross (i : Instr) : (i.row.pageCross && !addsCross i.mnemonic) = false := by
  cases i <;> rfl

theorem pageCross_false (h : addsCross i.mnemonic = false) : i.row.pageCross = false := by
  have := pageCross_addsCross i
  rw [h] at this
  simpa using this

end Sys2Proof.Machine
end

