-- ==== Sys2Proof/Laws/Exec.lean ====
section
/-! SUPPORT. What an instruction can do: one lemma for each shape of a meaning, and `exec_effect`, which says for every
instruction that completes what it did to the state outside the CPU. -/

namespace Sys2Proof.Machine

variable {i : Instr} {s t : State}

/-! ## The end of an instruction -/

theorem finish_eq (i : Instr) (cross : Bool) (s : State) :
    finish i cross s =
      { s with
        cpu := { s.cpu with pc := s.cpu.pc + BitVec.ofNat 16 i.length }
        insCycles := i.row.baseCycles + crossCycle i cross } := rfl

theorem finishJump_eq (i : Instr) (s : State) : finishJump i s = { s with insCycles := i.row.baseCycles } := rfl

/-- A row without the page-cross cycle takes its base cycles. -/
theorem crossCycle_eq_zero (h : i.row.pageCross = false) (cross : Bool) : crossCycle i cross = 0 := by
  simp [crossCycle, h]

/-! ## The shapes -/

theorem runImplied_eq (i : Instr) (f : Cpu → Cpu) (s : State) :
    runImplied i f s = .next (finish i false (s.mapCpu f)) := rfl

theorem runRead_ok {o : ValueOperand} {f : Byte → Cpu → Cpu} {r : Fetched} {s1 : State}
    (h : fetchValue o s = .ok r s1) : runRead i o f s = .next (finish i r.cross (s1.mapCpu (f r.value))) := by
  simp [runRead, h]

theorem runRead_fault {o : ValueOperand} {f : Byte → Cpu → Cpu} {e : Fault} (h : fetchValue o s = .fault e) :
    runRead i o f s = .fault e := by
  simp [runRead, h]

theorem runRead_next {o : ValueOperand} {f : Byte → Cpu → Cpu} (h : runRead i o f s = .next t) :
    ∃ r s1, fetchValue o s = .ok r s1 ∧ t = finish i r.cross (s1.mapCpu (f r.value)) := by
  rcases Res.ok_or_fault (fetchValue o s) with ⟨r, s1, h1⟩ | ⟨e, h1⟩
  · rw [runRead_ok h1] at h
    cases h
    exact ⟨r, s1, h1, rfl⟩
  · rw [runRead_fault h1] at h
    cases h

theorem runStore_ok {m : MemOperand} {f : Cpu → Byte} {e : Word × Bool} {s2 : State} (ha : fetchAddress m s = .ok e s)
    (hw : busWrite e.1 (f s.cpu) s = .ok () s2) : runStore i m f s = .next (finish i e.2 s2) := by
  simp [runStore, ha, hw]

theorem runStore_fault {m : MemOperand} {f : Cpu → Byte} {e : Word × Bool} {x : Fault} (ha : fetchAddress m s = .ok e s)
    (hw : busWrite e.1 (f s.cpu) s = .fault x) : runStore i m f s = .fault x := by
  simp [runStore, ha, hw]

theorem runStore_next {m : MemOperand} {f : Cpu → Byte} (h : runStore i m f s = .next t) :
    ∃ e s2, fetchAddress m s = .ok e s ∧ busWrite e.1 (f s.cpu) s = .ok () s2 ∧ t = finish i e.2 s2 := by
  obtain ⟨e, he⟩ := fetchAddress_ok m s
  rcases Res.ok_or_fault (busWrite e.1 (f s.cpu) s) with ⟨u, s2, h2⟩ | ⟨x, h2⟩
  · rw [runStore_ok he h2] at h
    cases h
    exact ⟨e, s2, he, h2, rfl⟩
  · rw [runStore_fault he h2] at h
    cases h

theorem runModify_ok {o : ValueOperand} {result : Byte → Cpu → Byte} {before after : Byte → Cpu → Cpu} {r : Fetched}
    {s1 s2 : State} (h : fetchValue o s = .ok r s1)
    (hw : writeBack r.place (result r.value s1.cpu) (s1.mapCpu (before r.value)) = .ok () s2) :
    runModify i o result before after s =
      .next (finish i r.cross (s2.mapCpu (after (result r.value s1.cpu)))) := by
  simp [runModify, h, hw]

theorem runModify_readFault {o : ValueOperand} {result : Byte → Cpu → Byte} {before after : Byte → Cpu → Cpu}
    {e : Fault} (h : fetchValue o s = .fault e) : runModify i o result before after s = .fault e := by
  simp [runModify, h]

theorem runModify_writeFault {o : ValueOperand} {result : Byte → Cpu → Byte} {before after : Byte → Cpu → Cpu}
    {r : Fetched} {s1 : State} {e : Fault} (h : fetchValue o s = .ok r s1)
    (hw : writeBack r.place (result r.value s1.cpu) (s1.mapCpu (before r.value)) = .fault e) :
    runModify i o result before after s = .fault e := by
  simp [runModify, h, hw]

theorem runModify_next {o : ValueOperand} {result : Byte → Cpu → Byte} {before after : Byte → Cpu → Cpu}
    (h : runModify i o result before after s = .next t) :
    ∃ r s1 s2, fetchValue o s = .ok r s1 ∧
      writeBack r.place (result r.value s1.cpu) (s1.mapCpu (before r.value)) = .ok () s2 ∧
      t = finish i r.cross (s2.mapCpu (after (result r.value s1.cpu))) := by
  rcases Res.ok_or_fault (fetchValue o s) with ⟨r, s1, h1⟩ | ⟨e, h1⟩
  · rcases Res.ok_or_fault (writeBack r.place (result r.value s1.cpu) (s1.mapCpu (before r.value))) with
      ⟨u, s2, h2⟩ | ⟨e, h2⟩
    · rw [runModify_ok h1 h2] at h
      cases h
      exact ⟨r, s1, s2, h1, h2, rfl⟩
    · rw [runModify_writeFault h1 h2] at h
      cases h
  · rw [runModify_readFault h1] at h
    cases h

theorem runBranch_taken (d : Int) (s : State) :
    runBranch i d true s =
      .next { s with
        cpu := { s.cpu with pc := branchTarget d s }
        insCycles := i.row.baseCycles + 1 + (if pageCross (branchNext s) (branchTarget d s) then 1 else 0) } := rfl

theorem runBranch_not_taken (d : Int) (s : State) : runBranch i d false s = .next (finish i false s) := rfl

/-- A branch that completes changed only PC and the returned cycles. -/
theorem runBranch_next {d : Int} {cond : Bool} (h : runBranch i d cond s = .next t) :
    t = { s with cpu := { s.cpu with pc := t.cpu.pc }, insCycles := t.insCycles } := by
  cases cond
  · rw [runBranch_not_taken] at h
    cases h
    rfl
  · rw [runBranch_taken] at h
    cases h
    rfl

/-! ## Write-back -/

/-- A write-back that completes either changed the CPU alone or was one store. -/
theorem writeBack_next {p : Place} {v : Byte} {u : Unit} (h : writeBack p v s = .ok u t) :
    t = { s with cpu := t.cpu } ∨ ∃ ea, p = .mem ea ∧ busWrite ea v s = .ok () t := by
  cases p with
  | acc => cases h; exact .inl rfl
  | none => cases h; exact .inl rfl
  | mem ea => exact .inr ⟨ea, rfl, h⟩

/-! ## The stack -/

/-- Pushed bytes: writes in page 1 of work RAM, in order. -/
def pushes (l : List (Byte × Byte)) (m : Memory) : Memory :=
  l.foldl (fun m e => Memory.write m (0x100 + e.1.toNat) e.2) m

theorem wramIndex_stackAddr (sp : Byte) : wramIndex (stackAddr sp) = 0x100 + sp.toNat := by
  have := sp.isLt
  simp only [wramIndex, stackAddr, BitVec.toNat_add, BitVec.toNat_ofNat, BitVec.toNat_setWidth]
  omega

theorem push_eq (b : Byte) (s : State) :
    push b s =
      { s with cpu := { s.cpu with sp := s.cpu.sp - 1 }, wram := Memory.write s.wram (0x100 + s.cpu.sp.toNat) b } := by
  simp only [push, wramWrite, State.mapWram, State.mapCpu, wramIndex_stackAddr]

theorem pushWord_eq (w : Word) (s : State) :
    pushWord w s =
      { s with
        cpu := { s.cpu with sp := s.cpu.sp - 1 - 1 }
        wram := pushes [(s.cpu.sp, hiByte w), (s.cpu.sp - 1, loByte w)] s.wram } := by
  simp only [pushWord, push_eq, pushes, List.foldl]

theorem afterPull_eq (s : State) : afterPull s = { s with cpu := { s.cpu with sp := s.cpu.sp + 1 } } := rfl

/-- Taking an interrupt (60_exceptions.md R703), whole: three bytes pushed in page 1, I set, PC loaded from the vector,
`in_nmi` set by NMI, the entry's cycles pending. -/
theorem interrupt_eq (k : IntKind) (ret : Word) (s : State) :
    interrupt k ret s =
      { s with
        cpu := { s.cpu with
          sp := s.cpu.sp - 1 - 1 - 1
          i := true
          inNmi := s.cpu.inNmi || k.isNmi
          pc := vectorTarget k s }
        wram := pushes [(s.cpu.sp, hiByte ret), (s.cpu.sp - 1, loByte ret), (s.cpu.sp - 1 - 1, s.cpu.pushedP k.pushesB)]
          s.wram
        emu := { s.emu with pendingCycles := s.emu.pendingCycles + k.entryCycles s.params } } := by
  simp only [interrupt, pushWord_eq, push_eq, pushes, List.foldl, State.mapCpu, State.addPending, State.mapEmu]
  rfl

/-! ## What an instruction does outside the CPU -/

/-- The ways a completed instruction can have changed the state outside the CPU registers and its returned cycles:
reads only; reads and then one store; or bytes pushed on the stack. -/
inductive Effect (s t : State) : Prop
  | reads (s1 : State) (hr : ReadFrame s s1) (ht : t = { s1 with cpu := t.cpu, insCycles := t.insCycles })
  | store (ea : Word) (v : Byte) (s1 s2 : State) (hr : ReadFrame s s1) (hw : busWrite ea v s1 = .ok () s2)
      (ht : t = { s2 with cpu := t.cpu, insCycles := t.insCycles })
  | stack (l : List (Byte × Byte))
      (ht : t = { s with cpu := t.cpu, insCycles := t.insCycles, wram := pushes l s.wram })

theorem runImplied_effect {f : Cpu → Cpu} (h : runImplied i f s = .next t) : Effect s t := by
  cases h
  exact .reads s (.refl s) rfl

theorem runRead_effect {o : ValueOperand} {f : Byte → Cpu → Cpu} (h : runRead i o f s = .next t) : Effect s t := by
  obtain ⟨r, s1, h1, rfl⟩ := runRead_next h
  exact .reads s1 (fetchValue_frame h1) rfl

theorem runStore_effect {m : MemOperand} {f : Cpu → Byte} (h : runStore i m f s = .next t) : Effect s t := by
  obtain ⟨e, s2, -, h2, rfl⟩ := runStore_next h
  exact .store e.1 _ s s2 (.refl s) h2 rfl

/-- A write that completes from a state with other CPU registers completes from the state itself. -/
theorem busWrite_of_mapCpu {f : Cpu → Cpu} {a : Word} {d : Byte} {u : Unit} {s t : State}
    (h : busWrite a d (s.mapCpu f) = .ok u t) :
    ∃ t', busWrite a d s = .ok () t' ∧ t = t'.mapCpu f := by
  have hw : writable s a d = true := by
    rw [← writable_mapCpu f s]
    exact (busWrite_completes a d _).1 ⟨t, h⟩
  obtain ⟨t', ht'⟩ := (busWrite_completes a d s).2 hw
  have := busWrite_mapCpu f ht'
  rw [this] at h
  cases h
  exact ⟨t', ht', rfl⟩

theorem runModify_effect {o : ValueOperand} {result : Byte → Cpu → Byte} {before after : Byte → Cpu → Cpu}
    (h : runModify i o result before after s = .next t) : Effect s t := by
  obtain ⟨r, s1, s2, h1, h2, rfl⟩ := runModify_next h
  rcases writeBack_next h2 with h3 | ⟨ea, -, h3⟩
  · exact .reads s1 (fetchValue_frame h1) (by rw [h3]; rfl)
  · obtain ⟨s3, h4, rfl⟩ := busWrite_of_mapCpu h3
    exact .store ea _ s1 s3 (fetchValue_frame h1) h4 rfl

theorem runBranch_effect {d : Int} {cond : Bool} (h : runBranch i d cond s = .next t) : Effect s t :=
  .reads s (.refl s) (by rw [runBranch_next h])

theorem phaForm_effect (h : phaForm i s = .next t) : Effect s t := by
  simp only [phaForm, push_eq, finish_eq] at h
  cases h
  exact .stack [(s.cpu.sp, s.cpu.a)] rfl

theorem phpForm_effect (h : phpForm i s = .next t) : Effect s t := by
  simp only [phpForm, push_eq, finish_eq] at h
  cases h
  exact .stack [(s.cpu.sp, s.cpu.pushedP true)] rfl

theorem plaForm_effect (h : plaForm i s = .next t) : Effect s t := by
  cases h
  exact .reads s (.refl s) rfl

theorem plpForm_effect (h : plpForm i s = .next t) : Effect s t := by
  cases h
  exact .reads s (.refl s) rfl

theorem rtsForm_effect (h : rtsForm i s = .next t) : Effect s t := by
  cases h
  exact .reads s (.refl s) rfl

theorem rtiForm_effect (h : rtiForm i s = .next t) : Effect s t := by
  cases h
  exact .reads s (.refl s) rfl

theorem brkForm_effect (h : brkForm i s = .next t) : Effect s t := by
  unfold brkForm at h
  split at h
  · cases h
    exact .reads s (.refl s) rfl
  · simp only [interrupt_eq, finishJump_eq] at h
    cases h
    exact .stack _ rfl

theorem jsrForm_effect {a : Word} (h : jsrForm i a s = .next t) : Effect s t := by
  simp only [jsrForm, pushWord_eq, finishJump_eq] at h
  cases h
  exact .stack _ rfl

theorem jmpAbsForm_effect {a : Word} (h : jmpAbsForm i a s = .next t) : Effect s t := by
  cases h
  exact .reads s (.refl s) rfl

theorem jmpIndForm_effect {p : Word} (h : jmpIndForm i p s = .next t) : Effect s t := by
  unfold jmpIndForm at h
  obtain ⟨u, h⟩ := Res.outcome_eq_next.1 h
  obtain ⟨w, s1, h1, h2⟩ := Res.bind_eq_ok.1 h
  cases h2
  exact .reads s1 (readJumpPointer_frame h1) rfl

/-- What every completed instruction did outside the CPU. -/
theorem exec_effect (h : exec i s = .next t) : Effect s t := by
  cases hm : i.mnemonic
  case lda => obtain ⟨o, -, he⟩ := exec_of_lda hm; rw [he, ldaForm] at h; exact runRead_effect h
  case ldx => obtain ⟨o, -, he⟩ := exec_of_ldx hm; rw [he, ldxForm] at h; exact runRead_effect h
  case ldy => obtain ⟨o, -, he⟩ := exec_of_ldy hm; rw [he, ldyForm] at h; exact runRead_effect h
  case lax => obtain ⟨o, -, he⟩ := exec_of_lax hm; rw [he, laxForm] at h; exact runRead_effect h
  case and => obtain ⟨o, -, he⟩ := exec_of_and hm; rw [he, andForm] at h; exact runRead_effect h
  case ora => obtain ⟨o, -, he⟩ := exec_of_ora hm; rw [he, oraForm] at h; exact runRead_effect h
  case eor => obtain ⟨o, -, he⟩ := exec_of_eor hm; rw [he, eorForm] at h; exact runRead_effect h
  case bit => obtain ⟨o, -, he⟩ := exec_of_bit hm; rw [he, bitForm] at h; exact runRead_effect h
  case adc => obtain ⟨o, -, he⟩ := exec_of_adc hm; rw [he, adcForm] at h; exact runRead_effect h
  case sbc => obtain ⟨o, -, he⟩ := exec_of_sbc hm; rw [he, sbcForm] at h; exact runRead_effect h
  case cmp => obtain ⟨o, -, he⟩ := exec_of_cmp hm; rw [he, cmpForm] at h; exact runRead_effect h
  case cpx => obtain ⟨o, -, he⟩ := exec_of_cpx hm; rw [he, cpxForm] at h; exact runRead_effect h
  case cpy => obtain ⟨o, -, he⟩ := exec_of_cpy hm; rw [he, cpyForm] at h; exact runRead_effect h
  case anc => obtain ⟨o, -, he⟩ := exec_of_anc hm; rw [he, ancForm] at h; exact runRead_effect h
  case alr => obtain ⟨o, -, he⟩ := exec_of_alr hm; rw [he, alrForm] at h; exact runRead_effect h
  case arr => obtain ⟨o, -, he⟩ := exec_of_arr hm; rw [he, arrForm] at h; exact runRead_effect h
  case axs => obtain ⟨o, -, he⟩ := exec_of_axs hm; rw [he, axsForm] at h; exact runRead_effect h
  case inc => obtain ⟨o, -, he⟩ := exec_of_inc hm; rw [he, incForm] at h; exact runModify_effect h
  case dec => obtain ⟨o, -, he⟩ := exec_of_dec hm; rw [he, decForm] at h; exact runModify_effect h
  case asl => obtain ⟨o, -, he⟩ := exec_of_asl hm; rw [he, aslForm] at h; exact runModify_effect h
  case lsr => obtain ⟨o, -, he⟩ := exec_of_lsr hm; rw [he, lsrForm] at h; exact runModify_effect h
  case rol => obtain ⟨o, -, he⟩ := exec_of_rol hm; rw [he, rolForm] at h; exact runModify_effect h
  case ror => obtain ⟨o, -, he⟩ := exec_of_ror hm; rw [he, rorForm] at h; exact runModify_effect h
  case slo => obtain ⟨o, -, he⟩ := exec_of_slo hm; rw [he, sloForm] at h; exact runModify_effect h
  case rla => obtain ⟨o, -, he⟩ := exec_of_rla hm; rw [he, rlaForm] at h; exact runModify_effect h
  case sre => obtain ⟨o, -, he⟩ := exec_of_sre hm; rw [he, sreForm] at h; exact runModify_effect h
  case rra => obtain ⟨o, -, he⟩ := exec_of_rra hm; rw [he, rraForm] at h; exact runModify_effect h
  case dcp => obtain ⟨o, -, he⟩ := exec_of_dcp hm; rw [he, dcpForm] at h; exact runModify_effect h
  case isc => obtain ⟨o, -, he⟩ := exec_of_isc hm; rw [he, iscForm] at h; exact runModify_effect h
  case sta => obtain ⟨m, -, he⟩ := exec_of_sta hm; rw [he, staForm] at h; exact runStore_effect h
  case stx => obtain ⟨m, -, he⟩ := exec_of_stx hm; rw [he, stxForm] at h; exact runStore_effect h
  case sty => obtain ⟨m, -, he⟩ := exec_of_sty hm; rw [he, styForm] at h; exact runStore_effect h
  case sax => obtain ⟨m, -, he⟩ := exec_of_sax hm; rw [he, saxForm] at h; exact runStore_effect h
  case tax => obtain ⟨-, he⟩ := exec_of_tax hm; rw [he, taxForm] at h; exact runImplied_effect h
  case tay => obtain ⟨-, he⟩ := exec_of_tay hm; rw [he, tayForm] at h; exact runImplied_effect h
  case txa => obtain ⟨-, he⟩ := exec_of_txa hm; rw [he, txaForm] at h; exact runImplied_effect h
  case tya => obtain ⟨-, he⟩ := exec_of_tya hm; rw [he, tyaForm] at h; exact runImplied_effect h
  case tsx => obtain ⟨-, he⟩ := exec_of_tsx hm; rw [he, tsxForm] at h; exact runImplied_effect h
  case txs => obtain ⟨-, he⟩ := exec_of_txs hm; rw [he, txsForm] at h; exact runImplied_effect h
  case inx => obtain ⟨-, he⟩ := exec_of_inx hm; rw [he, inxForm] at h; exact runImplied_effect h
  case iny => obtain ⟨-, he⟩ := exec_of_iny hm; rw [he, inyForm] at h; exact runImplied_effect h
  case dex => obtain ⟨-, he⟩ := exec_of_dex hm; rw [he, dexForm] at h; exact runImplied_effect h
  case dey => obtain ⟨-, he⟩ := exec_of_dey hm; rw [he, deyForm] at h; exact runImplied_effect h
  case clc => obtain ⟨-, he⟩ := exec_of_clc hm; rw [he, clcForm] at h; exact runImplied_effect h
  case sec => obtain ⟨-, he⟩ := exec_of_sec hm; rw [he, secForm] at h; exact runImplied_effect h
  case cli => obtain ⟨-, he⟩ := exec_of_cli hm; rw [he, cliForm] at h; exact runImplied_effect h
  case sei => obtain ⟨-, he⟩ := exec_of_sei hm; rw [he, seiForm] at h; exact runImplied_effect h
  case cld => obtain ⟨-, he⟩ := exec_of_cld hm; rw [he, cldForm] at h; exact runImplied_effect h
  case sed => obtain ⟨-, he⟩ := exec_of_sed hm; rw [he, sedForm] at h; exact runImplied_effect h
  case clv => obtain ⟨-, he⟩ := exec_of_clv hm; rw [he, clvForm] at h; exact runImplied_effect h
  case bcc => obtain ⟨d, -, he⟩ := exec_of_bcc hm; rw [he, bccForm] at h; exact runBranch_effect h
  case bcs => obtain ⟨d, -, he⟩ := exec_of_bcs hm; rw [he, bcsForm] at h; exact runBranch_effect h
  case beq => obtain ⟨d, -, he⟩ := exec_of_beq hm; rw [he, beqForm] at h; exact runBranch_effect h
  case bne => obtain ⟨d, -, he⟩ := exec_of_bne hm; rw [he, bneForm] at h; exact runBranch_effect h
  case bmi => obtain ⟨d, -, he⟩ := exec_of_bmi hm; rw [he, bmiForm] at h; exact runBranch_effect h
  case bpl => obtain ⟨d, -, he⟩ := exec_of_bpl hm; rw [he, bplForm] at h; exact runBranch_effect h
  case bvc => obtain ⟨d, -, he⟩ := exec_of_bvc hm; rw [he, bvcForm] at h; exact runBranch_effect h
  case bvs => obtain ⟨d, -, he⟩ := exec_of_bvs hm; rw [he, bvsForm] at h; exact runBranch_effect h
  case pha => obtain ⟨-, he⟩ := exec_of_pha hm; rw [he] at h; exact phaForm_effect h
  case php => obtain ⟨-, he⟩ := exec_of_php hm; rw [he] at h; exact phpForm_effect h
  case pla => obtain ⟨-, he⟩ := exec_of_pla hm; rw [he] at h; exact plaForm_effect h
  case plp => obtain ⟨-, he⟩ := exec_of_plp hm; rw [he] at h; exact plpForm_effect h
  case rts => obtain ⟨-, he⟩ := exec_of_rts hm; rw [he] at h; exact rtsForm_effect h
  case rti => obtain ⟨-, he⟩ := exec_of_rti hm; rw [he] at h; exact rtiForm_effect h
  case brk => obtain ⟨-, he⟩ := exec_of_brk hm; rw [he] at h; exact brkForm_effect h
  case jsr => obtain ⟨a, -, he⟩ := exec_of_jsr hm; rw [he] at h; exact jsrForm_effect h
  case jmp =>
    obtain ⟨a, -, he⟩ | ⟨p, -, he⟩ := exec_of_jmp hm <;> rw [he] at h
    · exact jmpAbsForm_effect h
    · exact jmpIndForm_effect h
  case nop =>
    obtain ⟨-, he⟩ | ⟨o, -, he⟩ := exec_of_nop hm <;> rw [he] at h
    · rw [nopForm] at h
      exact runImplied_effect h
    · rw [nopReadForm] at h
      exact runRead_effect h
  all_goals
    have hf : i.faults = true := (faults_iff i).2 (by simp [hm])
    rw [exec_of_faults hf] at h
    cases h

end Sys2Proof.Machine
end

