-- ==== Sys2Proof/Laws/Units.lean ====
section
/-! SUPPORT. What the PPU's run and the APU's run can do to the state, and the parts of the invariant that an access, an
instruction, a dot and an APU cycle each keep. -/

namespace Sys2Proof.Machine

/-! ## Indices stay within their stores -/

theorem palIndex_lt (a : Nat) : palIndex a < 32 := by
  unfold palIndex
  have := Nat.mod_lt a (show 0x20 > 0 by decide)
  dsimp only
  split <;> omega

theorem ntIndex_lt (m : Mirroring) (a : Nat) : ntIndex m a < 4096 := by
  have hk := Nat.mod_lt ((a - 0x2000) % 0x1000) (show 0x400 > 0 by decide)
  unfold ntIndex
  cases m
  · have := Nat.and_le_right (n := (a - 0x2000) % 0x1000 / 0x400) (m := 2)
    dsimp only
    omega
  · have := Nat.and_le_right (n := (a - 0x2000) % 0x1000 / 0x400) (m := 1)
    dsimp only
    omega

theorem wramIndex_lt (a : Word) : wramIndex a < 2048 := Nat.mod_lt _ (by decide)

/-! ## Accesses keep the invariant's parts -/

theorem ReadFrame.ppu_inv {s t : State} (h : ReadFrame s t) (k : s.ppu.Inv) : t.ppu.Inv := by
  rw [h.ppu]
  exact ⟨k.lines, k.dots, k.ctrl5, k.color, k.bgt, k.oam, k.nt, k.pal⟩

theorem ppuWrite_ppu_inv {a : Nat} {d : Byte} {s t : State} {u : Unit} (h : ppuWrite a d s = .ok u t)
    (k : s.ppu.Inv) : t.ppu.Inv := by
  unfold ppuWrite at h
  split at h
  · split at h
    · cases h; exact k
    · cases h
  · split at h
    · cases h
      exact ⟨k.lines, k.dots, k.ctrl5, k.color, k.bgt, k.oam, Memory.sized_write _ (ntIndex_lt _ _) k.nt, k.pal⟩
    · cases h
      exact ⟨k.lines, k.dots, k.ctrl5, k.color, k.bgt, k.oam, k.nt, Cells.sized_write _ (palIndex_lt _) k.pal⟩

theorem portWrite_ppu_inv {a : Word} {d : Byte} {s t : State} {u : Unit} (h : portWrite a d s = .ok u t)
    (k : s.ppu.Inv) : t.ppu.Inv := by
  unfold portWrite at h
  split at h
  · split at h
    · cases h
    · rename_i hd
      cases h
      exact ⟨k.lines, k.dots, by simpa [Ppu.writeCtrl] using hd, k.color, k.bgt, k.oam, k.nt, k.pal⟩
  · cases h; exact ⟨k.lines, k.dots, k.ctrl5, k.color, k.bgt, k.oam, k.nt, k.pal⟩
  · cases h; exact k
  · cases h; exact ⟨k.lines, k.dots, k.ctrl5, k.color, k.bgt, k.oam, k.nt, k.pal⟩
  · cases h
    exact ⟨k.lines, k.dots, k.ctrl5, k.color, k.bgt, Memory.sized_write _ s.ppu.oamaddr.isLt k.oam, k.nt, k.pal⟩
  · cases h
    simp only [State.mapPpu_ppu]
    rw [Ppu.writeScroll_frame]
    exact ⟨k.lines, k.dots, k.ctrl5, k.color, k.bgt, k.oam, k.nt, k.pal⟩
  · cases h
    simp only [State.mapPpu_ppu]
    rw [Ppu.writeAddr_frame]
    exact ⟨k.lines, k.dots, k.ctrl5, k.color, k.bgt, k.oam, k.nt, k.pal⟩
  · obtain ⟨u', s1, h1, h2⟩ := Res.bind_eq_ok.1 h
    have k1 := ppuWrite_ppu_inv h1 k
    cases h2
    exact ⟨k1.lines, k1.dots, k1.ctrl5, k1.color, k1.bgt, k1.oam, k1.nt, k1.pal⟩

theorem ioWrite_ppu (r : Nat) (d : Byte) (s : State) : (ioWrite r d s).ppu = s.ppu := by
  unfold ioWrite
  split <;> rfl

/-- A write keeps the PPU's part of the invariant. -/
theorem busWrite_ppu_inv {a : Word} {d : Byte} {s t : State} {u : Unit} (h : busWrite a d s = .ok u t)
    (k : s.ppu.Inv) : t.ppu.Inv := by
  unfold busWrite at h
  split at h
  · cases h; exact k
  split at h
  · exact portWrite_ppu_inv h k
  split at h
  · obtain ⟨-, rfl⟩ := Res.ok.inj h
    rw [ioWrite_ppu]
    exact k
  split at h
  · cases h
  split at h
  · split at h
    · cases h; exact k
    · cases h
  · simp only [prgWrite] at h
    split at h
    · cases h; exact k
    · cases h

theorem Apu.quarterFrame_inv {a : Apu} (k : a.Inv) : a.quarterFrame.Inv :=
  ⟨k.bitsLeftLow, k.bitsLeftHigh, k.step, k.shift⟩

theorem Apu.halfFrame_inv {a : Apu} (k : a.Inv) : a.halfFrame.Inv :=
  ⟨k.bitsLeftLow, k.bitsLeftHigh, k.step, k.shift⟩

@[simp] theorem Apu.quarterFrame_cycle (a : Apu) : a.quarterFrame.cycle = a.cycle := rfl
@[simp] theorem Apu.halfFrame_cycle (a : Apu) : a.halfFrame.cycle = a.cycle := rfl
@[simp] theorem Apu.quarterFrame_fs (a : Apu) : a.quarterFrame.fs = a.fs := rfl
@[simp] theorem Apu.halfFrame_fs (a : Apu) : a.halfFrame.fs = a.fs := rfl

theorem Dmc.write_bitsLeft (r : Nat) (d : Byte) (c : Dmc) : (c.write r d).bitsLeft = c.bitsLeft := by
  unfold Dmc.write
  split <;> rfl

theorem Dmc.enable_bitsLeft (on : Bool) (c : Dmc) : (c.enable on).bitsLeft = c.bitsLeft := by
  unfold Dmc.enable
  split
  · split <;> rfl
  · rfl

theorem Noise.write_shift (r : Nat) (d : Byte) (n : Noise) : (n.write r d).shift = n.shift := by
  unfold Noise.write
  split <;> rfl

theorem Apu.writeFrameCounter_inv {a : Apu} (d : Byte) (k : a.Inv) : (a.writeFrameCounter d).Inv := by
  have k1 : Apu.Inv { a with fs := { mode := d.getLsbD 7, irqInhibit := d.getLsbD 6, counter := 0, step := 0 } } :=
    ⟨k.bitsLeftLow, k.bitsLeftHigh, by dsimp only; split <;> decide, k.shift⟩
  unfold Apu.writeFrameCounter
  dsimp only
  split
  · exact Apu.halfFrame_inv (Apu.quarterFrame_inv k1)
  · exact k1

/-- A register write keeps the APU's part of the invariant and does not count a cycle. -/
theorem Apu.write_inv {a : Apu} (r : Nat) (d : Byte) (k : a.Inv) : (a.write r d).Inv ∧ (a.write r d).cycle = a.cycle := by
  unfold Apu.write
  split
  · exact ⟨⟨k.bitsLeftLow, k.bitsLeftHigh, k.step, k.shift⟩, rfl⟩
  split
  · exact ⟨⟨k.bitsLeftLow, k.bitsLeftHigh, k.step, k.shift⟩, rfl⟩
  split
  · exact ⟨⟨k.bitsLeftLow, k.bitsLeftHigh, k.step, k.shift⟩, rfl⟩
  split
  · refine ⟨⟨k.bitsLeftLow, k.bitsLeftHigh, k.step, ?_⟩, rfl⟩
    dsimp only
    rw [Noise.write_shift]
    exact k.shift
  split
  · refine ⟨⟨?_, ?_, k.step, k.shift⟩, rfl⟩
    · dsimp only
      rw [Dmc.write_bitsLeft]
      exact k.bitsLeftLow
    · dsimp only
      rw [Dmc.write_bitsLeft]
      exact k.bitsLeftHigh
  split
  · refine ⟨⟨?_, ?_, k.step, k.shift⟩, rfl⟩
    · simp only [Apu.writeEnable, Dmc.enable_bitsLeft]
      exact k.bitsLeftLow
    · simp only [Apu.writeEnable, Dmc.enable_bitsLeft]
      exact k.bitsLeftHigh
  split
  · refine ⟨Apu.writeFrameCounter_inv d k, ?_⟩
    unfold Apu.writeFrameCounter
    dsimp only
    split <;> rfl
  · exact ⟨k, rfl⟩

theorem ioWrite_inv (r : Nat) (d : Byte) {s : State} (k : s.Inv) : (ioWrite r d s).Inv := by
  unfold ioWrite
  split
  · exact ⟨k.ppu, k.apu, k.cart, k.wram, k.prgRam, k.index0, k.index1, k.cycles, k.insCycles, k.sampleLow,
      k.sampleHigh⟩
  · exact ⟨k.ppu, k.apu, k.cart, k.wram, k.prgRam, (Ctl.writeStrobe_index d s.ctl).1 k.index0,
      (Ctl.writeStrobe_index d s.ctl).2 k.index1, k.cycles, k.insCycles, k.sampleLow, k.sampleHigh⟩
  · obtain ⟨ka, hc⟩ := Apu.write_inv r d k.apu
    exact ⟨k.ppu, ka, k.cart, k.wram, k.prgRam, k.index0, k.index1, hc.trans k.cycles, k.insCycles, k.sampleLow,
      k.sampleHigh⟩

/-- A write keeps the rest of the invariant. -/
theorem busWrite_inv {a : Word} {d : Byte} {s t : State} {u : Unit} (h : busWrite a d s = .ok u t) (k : s.Inv) :
    t.Inv := by
  have f := busWrite_frame h
  have kp := busWrite_ppu_inv h k.ppu
  unfold busWrite at h
  split at h
  · cases h
    exact ⟨k.ppu, k.apu, k.cart, Memory.sized_write _ (wramIndex_lt _) k.wram, k.prgRam, k.index0, k.index1, k.cycles,
      k.insCycles, k.sampleLow, k.sampleHigh⟩
  split at h
  · have hs : t = { s with ppu := t.ppu, cart := t.cart } ∧ t.cart.Inv := by
      unfold portWrite at h
      split at h
      · split at h
        · cases h
        · cases h; exact ⟨rfl, k.cart⟩
      · cases h; exact ⟨rfl, k.cart⟩
      · cases h; exact ⟨rfl, k.cart⟩
      · cases h; exact ⟨rfl, k.cart⟩
      · cases h; exact ⟨rfl, k.cart⟩
      · cases h; exact ⟨rfl, k.cart⟩
      · cases h; exact ⟨rfl, k.cart⟩
      · obtain ⟨u', s1, h1, h2⟩ := Res.bind_eq_ok.1 h
        cases h2
        unfold ppuWrite at h1
        split at h1
        · split at h1
          · rename_i hc
            cases h1
            exact ⟨rfl, k.cart.banks, k.cart.prg, Memory.sized_write _ hc k.cart.chr⟩
          · cases h1
        · split at h1 <;> (cases h1; exact ⟨rfl, k.cart⟩)
    obtain ⟨ht, kc⟩ := hs
    rw [ht]
    exact ⟨kp, k.apu, kc, k.wram, k.prgRam, k.index0, k.index1, k.cycles, k.insCycles, k.sampleLow, k.sampleHigh⟩
  split at h
  · obtain ⟨-, rfl⟩ := Res.ok.inj h
    exact ioWrite_inv _ d k
  split at h
  · cases h
  split at h
  · split at h
    · rename_i hlo hhi _
      cases h
      exact ⟨k.ppu, k.apu, k.cart, k.wram, Memory.sized_write _ (by omega) k.prgRam, k.index0, k.index1, k.cycles,
        k.insCycles, k.sampleLow, k.sampleHigh⟩
    · cases h
  · simp only [prgWrite] at h
    split at h
    · rename_i hp
      cases h
      exact ⟨k.ppu, k.apu, ⟨k.cart.banks, Memory.sized_write _ hp k.cart.prg, k.cart.chr⟩, k.wram, k.prgRam, k.index0,
        k.index1, k.cycles, k.insCycles, k.sampleLow, k.sampleHigh⟩
    · cases h

/-- A read keeps the invariant. -/
theorem ReadFrame.inv {s t : State} (h : ReadFrame s t) (k : s.Inv) : t.Inv := by
  have kp := h.ppu_inv k.ppu
  have k0 := h.index0 k.index0
  have k1 := h.index1 k.index1
  rw [h.state]
  exact ⟨kp, k.apu, k.cart, k.wram, k.prgRam, k0, k1, k.cycles, k.insCycles, k.sampleLow, k.sampleHigh⟩

/-! ## Instructions keep the invariant -/

theorem pushes_sized (l : List (Byte × Byte)) {m : Memory} (k : Cells.Sized Memory.unlisted 2048 m) :
    Cells.Sized Memory.unlisted 2048 (pushes l m) := by
  induction l generalizing m with
  | nil => exact k
  | cons e l ih =>
    have := e.1.isLt
    exact ih (Memory.sized_write e.2 (by omega) k)

/-- The invariant does not look at the CPU registers. -/
theorem State.Inv.setCpu {s : State} (k : s.Inv) (c : Cpu) : ({ s with cpu := c } : State).Inv :=
  ⟨k.ppu, k.apu, k.cart, k.wram, k.prgRam, k.index0, k.index1, k.cycles, k.insCycles, k.sampleLow, k.sampleHigh⟩

/-- A completed instruction keeps the invariant, but for the returned cycles, which the step counts and clears. -/
theorem exec_inv {i : Instr} {s t : State} (h : exec i s = .next t) (k : s.Inv) :
    ({ t with insCycles := 0 } : State).Inv := by
  cases exec_effect h with
  | reads s1 hr ht =>
    have k1 := hr.inv k
    rw [ht]
    exact ⟨k1.ppu, k1.apu, k1.cart, k1.wram, k1.prgRam, k1.index0, k1.index1, k1.cycles, rfl, k1.sampleLow,
      k1.sampleHigh⟩
  | store ea v s1 s2 hr hw ht =>
    have k1 := busWrite_inv hw (hr.inv k)
    rw [ht]
    exact ⟨k1.ppu, k1.apu, k1.cart, k1.wram, k1.prgRam, k1.index0, k1.index1, k1.cycles, rfl, k1.sampleLow,
      k1.sampleHigh⟩
  | stack l ht =>
    rw [ht]
    exact ⟨k.ppu, k.apu, k.cart, pushes_sized l k.wram, k.prgRam, k.index0, k.index1, k.cycles, rfl, k.sampleLow,
      k.sampleHigh⟩

end Sys2Proof.Machine
end

