-- ==== Sys2Proof/Laws/Run.lean ====
section
/-! SUPPORT. What a run of the PPU and a run of the APU can do to the state, and that each keeps the invariant's parts. -/

namespace Sys2Proof.Machine

/-! ## What a PPU run leaves alone -/

/-- All that a PPU run can change: the PPU's flags, address, column counter, position and picture; and, by an NMI, the CPU
registers, bytes of the stack and the pending cycles. -/
structure PpuFrame (s t : State) : Prop where
  state : t = { s with cpu := t.cpu, emu := t.emu, wram := t.wram, ppu := t.ppu }
  emu : t.emu = { s.emu with pendingCycles := t.emu.pendingCycles }
  ppu : t.ppu = { s.ppu with vblank := t.ppu.vblank, s0hit := t.ppu.s0hit, v := t.ppu.v, fx := t.ppu.fx,
                             lines := t.ppu.lines, dots := t.ppu.dots, color := t.ppu.color, bgt := t.ppu.bgt }
  stack : ∃ l, t.wram = pushes l s.wram
  inNmi : t.cpu.inNmi = true → s.cpu.inNmi = true ∨ s.ppu.ctrl.getLsbD 7 = true

theorem PpuFrame.refl (s : State) : PpuFrame s s := ⟨rfl, rfl, rfl, ⟨[], rfl⟩, .inl⟩

theorem pushes_append (l k : List (Byte × Byte)) (m : Memory) : pushes (l ++ k) m = pushes k (pushes l m) := by
  simp [pushes, List.foldl_append]

theorem PpuFrame.trans {s t u : State} (h : PpuFrame s t) (k : PpuFrame t u) : PpuFrame s u where
  state := by rw [k.state, h.state]
  emu := by rw [k.emu, h.emu]
  ppu := by rw [k.ppu, h.ppu]
  stack := by
    obtain ⟨l, hl⟩ := h.stack
    obtain ⟨l', hl'⟩ := k.stack
    exact ⟨l ++ l', by rw [pushes_append, ← hl, hl']⟩
  inNmi := fun x => by
    rcases k.inNmi x with y | y
    · exact h.inNmi y
    · rw [h.ppu] at y
      exact .inr y

section
variable {s t : State} (h : PpuFrame s t)
include h
theorem PpuFrame.apu : t.apu = s.apu := by rw [h.state]
theorem PpuFrame.ctl : t.ctl = s.ctl := by rw [h.state]
theorem PpuFrame.cart : t.cart = s.cart := by rw [h.state]
theorem PpuFrame.params : t.params = s.params := by rw [h.state]
theorem PpuFrame.prgRam : t.prgRam = s.prgRam := by rw [h.state]
theorem PpuFrame.bus : t.bus = s.bus := by rw [h.state]
theorem PpuFrame.sampleIn : t.sampleIn = s.sampleIn := by rw [h.state]
theorem PpuFrame.insCycles : t.insCycles = s.insCycles := by rw [h.state]
theorem PpuFrame.totalCycles : t.emu.totalCycles = s.emu.totalCycles := by rw [h.emu]
theorem PpuFrame.instrCount : t.emu.instrCount = s.emu.instrCount := by rw [h.emu]
end

/-- A change of the picture fields alone. -/
theorem PpuFrame.ofPpu {s : State} {f : Ppu → Ppu}
    (h : f s.ppu = { s.ppu with vblank := (f s.ppu).vblank, s0hit := (f s.ppu).s0hit, v := (f s.ppu).v,
                                fx := (f s.ppu).fx, lines := (f s.ppu).lines, dots := (f s.ppu).dots,
                                color := (f s.ppu).color, bgt := (f s.ppu).bgt }) :
    PpuFrame s (s.mapPpu f) := ⟨rfl, rfl, h, ⟨[], rfl⟩, .inl⟩

/-- The picture stores stay within the picture, the position is not moved. -/
structure Ppu.Kept (p q : Ppu) : Prop where
  lines : q.lines = p.lines
  dots : q.dots = p.dots
  color : Cells.Sized 0 61440 p.color → Cells.Sized 0 61440 q.color
  bgt : Cells.Sized true 61440 p.bgt → Cells.Sized true 61440 q.bgt

theorem Ppu.Kept.refl (p : Ppu) : p.Kept p := ⟨rfl, rfl, id, id⟩

theorem Ppu.Kept.trans {p q r : Ppu} (h : p.Kept q) (k : q.Kept r) : p.Kept r :=
  ⟨k.lines.trans h.lines, k.dots.trans h.dots, fun x => k.color (h.color x), fun x => k.bgt (h.bgt x)⟩

/-- What one part of a dot does: the frame of a run, and the position kept. -/
structure DotFrame (s t : State) : Prop where
  frame : PpuFrame s t
  kept : s.ppu.Kept t.ppu

theorem DotFrame.refl (s : State) : DotFrame s s := ⟨.refl s, .refl s.ppu⟩

theorem DotFrame.trans {s t u : State} (h : DotFrame s t) (k : DotFrame t u) : DotFrame s u :=
  ⟨h.frame.trans k.frame, h.kept.trans k.kept⟩

/-! ## The parts of a dot -/

theorem Ppu.setColor_kept {l d : Nat} (k : BitVec 6) (p : Ppu) (hl : l < 240) (hd : d < 256) :
    p.Kept (p.setColor l d k) :=
  ⟨rfl, rfl, Cells.sized_write _ (by unfold pixelIndex; omega), id⟩

theorem Ppu.plot_kept {l d : Nat} (k : BitVec 6) (b : Bool) (p : Ppu) (hl : l < 240) (hd : d < 256) :
    p.Kept (p.plot l d k b) :=
  ⟨rfl, rfl, Cells.sized_write _ (by unfold pixelIndex; omega), Cells.sized_write _ (by unfold pixelIndex; omega)⟩

theorem dotStart_frame (l d : Nat) (s : State) : DotFrame s (s.mapPpu (Ppu.dotStart l d)) := by
  refine ⟨.ofPpu ?_, ?_⟩
  · unfold Ppu.dotStart Ppu.clearFlags
    dsimp only
    split <;> split <;> rfl
  · unfold Ppu.dotStart Ppu.clearFlags
    simp only [State.mapPpu_ppu]
    split <;> split <;> exact ⟨rfl, rfl, id, id⟩

theorem scroll_frame (l d : Nat) (s : State) : DotFrame s (s.mapPpu (Ppu.scroll l d)) := by
  refine ⟨.ofPpu ?_, ?_⟩
  · unfold Ppu.scroll
    split <;> rfl
  · simp only [State.mapPpu_ppu]
    unfold Ppu.scroll
    split <;> exact ⟨rfl, rfl, id, id⟩

theorem drawBg_frame {l d : Nat} (pid c : Nat) (s : State) (hl : l < 240) (hd : d < 256) :
    DotFrame s (s.mapPpu (Ppu.drawBg l d pid c)) := by
  have hn : ∀ p : Ppu, p.nextColumn = { p with fx := p.nextColumn.fx, v := p.nextColumn.v } := by
    intro p
    unfold Ppu.nextColumn
    split <;> rfl
  refine ⟨.ofPpu ?_, ?_⟩
  · unfold Ppu.drawBg
    split <;> (rw [hn]; rfl)
  · simp only [State.mapPpu_ppu, Ppu.drawBg]
    split
    · rw [hn]
      exact ⟨rfl, rfl, (Ppu.plot_kept (s.ppu.palRead 0x3F00) true s.ppu hl hd).color,
        (Ppu.plot_kept (s.ppu.palRead 0x3F00) true s.ppu hl hd).bgt⟩
    · rw [hn]
      exact ⟨rfl, rfl, (Ppu.plot_kept (s.ppu.palRead (0x3F00 + 4 * pid + c)) false s.ppu hl hd).color,
        (Ppu.plot_kept (s.ppu.palRead (0x3F00 + 4 * pid + c)) false s.ppu hl hd).bgt⟩

theorem bgPixel_frame {l d : Nat} {s t : State} {u : Unit} (h : bgPixel l d s = .ok u t) (hl : l < 240) (hd : d < 256) :
    DotFrame s t := by
  unfold bgPixel at h
  split at h
  · obtain ⟨tile, s1, h1, h⟩ := Res.bind_eq_ok.1 h
    obtain ⟨rfl, -⟩ := ppuRead_ok h1
    obtain ⟨attr, s2, h2, h⟩ := Res.bind_eq_ok.1 h
    obtain ⟨rfl, -⟩ := ppuRead_ok h2
    obtain ⟨lo, s3, h3, h⟩ := Res.bind_eq_ok.1 h
    obtain ⟨rfl, -⟩ := ppuRead_ok h3
    obtain ⟨hi, s4, h4, h⟩ := Res.bind_eq_ok.1 h
    obtain ⟨rfl, -⟩ := ppuRead_ok h4
    obtain ⟨-, rfl⟩ := Res.ok.inj h
    exact drawBg_frame _ _ s4 hl hd
  · obtain ⟨-, rfl⟩ := Res.ok.inj h
    exact ⟨.ofPpu rfl, Ppu.plot_kept _ _ s.ppu hl hd⟩

theorem sprite0Check_frame {l x : Nat} {s t : State} {u : Unit} (h : sprite0Check l x s = .ok u t) : DotFrame s t := by
  unfold sprite0Check at h
  dsimp only at h
  split at h
  · obtain ⟨hi, s1, h1, h⟩ := Res.bind_eq_ok.1 h
    obtain ⟨rfl, -⟩ := ppuRead_ok h1
    obtain ⟨lo, s2, h2, h⟩ := Res.bind_eq_ok.1 h
    obtain ⟨rfl, -⟩ := ppuRead_ok h2
    obtain ⟨-, rfl⟩ := Res.ok.inj h
    exact ⟨.ofPpu rfl, ⟨rfl, rfl, id, id⟩⟩
  · obtain ⟨-, rfl⟩ := Res.ok.inj h
    exact .refl s

/-! ## The compositor -/

/-- Two pixels of the picture with one index are one pixel. -/
theorem pixelIndex_inj {l d l' d' : Nat} (hd : d < 256) (hd' : d' < 256) (h : pixelIndex l d = pixelIndex l' d') :
    l = l' ∧ d = d' := by
  unfold pixelIndex at h
  omega

/-- A pixel's colour after one pixel is written. -/
theorem Ppu.colorAt_setColor {l d l' d' : Nat} (k : BitVec 6) (p : Ppu) (hd : d < 256) (hd' : d' < 256)
    (w : Cells.wf 0 p.color = true) :
    (p.setColor l d k).colorAt l' d' = if l' = l ∧ d' = d then k else p.colorAt l' d' := by
  unfold Ppu.setColor Ppu.colorAt
  split
  · rename_i h
    obtain ⟨rfl, rfl⟩ := h
    exact Cells.read_write_same _ _ w
  · rename_i h
    exact Cells.read_write_other _ fun e => h (pixelIndex_inj hd' hd e)

/-- The compositor changes colours alone. -/
structure ColorFrame (s t : State) : Prop where
  state : t = { s with ppu := { s.ppu with color := t.ppu.color } }
  color : Cells.Sized 0 61440 s.ppu.color → Cells.Sized 0 61440 t.ppu.color

theorem ColorFrame.refl (s : State) : ColorFrame s s := ⟨rfl, id⟩

theorem ColorFrame.trans {s t u : State} (h : ColorFrame s t) (k : ColorFrame t u) : ColorFrame s u :=
  ⟨by rw [k.state, h.state], fun x => k.color (h.color x)⟩

theorem ColorFrame.dot {s t : State} (h : ColorFrame s t) : DotFrame s t := by
  have hc := h.color
  rw [h.state]
  exact ⟨⟨rfl, rfl, rfl, ⟨[], rfl⟩, .inl⟩, rfl, rfl, hc, id⟩

theorem spritePixel_color (sp : Sprite) {line : Nat} (hi lo : Byte) (k : Nat) (p : Ppu) (hl : line < 240) :
    p.spritePixel sp line hi lo k = { p with color := (p.spritePixel sp line hi lo k).color } ∧
      (Cells.Sized 0 61440 p.color → Cells.Sized 0 61440 (p.spritePixel sp line hi lo k).color) := by
  unfold Ppu.spritePixel
  dsimp only
  split
  · rename_i hc
    exact ⟨rfl, (Ppu.setColor_kept _ p hl hc.1).color⟩
  · exact ⟨rfl, id⟩

theorem spriteColumns_color (sp : Sprite) {line : Nat} (hi lo : Byte) (ks : List Nat) (p : Ppu) (hl : line < 240) :
    p.spriteColumns sp line hi lo ks = { p with color := (p.spriteColumns sp line hi lo ks).color } ∧
      (Cells.Sized 0 61440 p.color → Cells.Sized 0 61440 (p.spriteColumns sp line hi lo ks).color) := by
  induction ks generalizing p with
  | nil => exact ⟨rfl, id⟩
  | cons k ks ih =>
    obtain ⟨h1, h2⟩ := spritePixel_color sp hi lo k p hl
    obtain ⟨h3, h4⟩ := ih (p.spritePixel sp line hi lo k)
    unfold Ppu.spriteColumns
    refine ⟨?_, fun x => h4 (h2 x)⟩
    rw [h3]
    rw [h1]

theorem spriteRow_color {sp : Sprite} {r : Nat} {s t : State} {u : Unit} (h : spriteRow sp r s = .ok u t) :
    ColorFrame s t := by
  unfold spriteRow at h
  dsimp only at h
  split at h
  · rename_i hl
    obtain ⟨lo, s1, h1, h⟩ := Res.bind_eq_ok.1 h
    obtain ⟨rfl, -⟩ := ppuRead_ok h1
    obtain ⟨hi, s2, h2, h5⟩ := Res.bind_eq_ok.1 h
    obtain ⟨rfl, -⟩ := ppuRead_ok h2
    obtain ⟨-, rfl⟩ := Res.ok.inj h5
    obtain ⟨h3, h4⟩ := spriteColumns_color sp hi lo (List.range 8) s2.ppu hl
    refine ⟨?_, h4⟩
    simp only [State.mapPpu]
    rw [← h3]
  · obtain ⟨-, rfl⟩ := Res.ok.inj h
    exact .refl s

theorem forEach_color {α : Type} {f : α → State → Res Unit} (hf : ∀ a s t u, f a s = .ok u t → ColorFrame s t)
    (l : List α) {s t : State} {u : Unit} (h : Res.forEach f l s = .ok u t) : ColorFrame s t := by
  induction l generalizing s with
  | nil =>
    obtain ⟨-, rfl⟩ := Res.ok.inj h
    exact .refl s
  | cons a l ih =>
    obtain ⟨u', s1, h1, h2⟩ := Res.bind_eq_ok.1 h
    exact (hf a s s1 u' h1).trans (ih h2)

/-- What a sprite shows at a pixel does not depend on the colours. -/
theorem spriteColor_of_colorFrame {s t : State} (h : ColorFrame s t) (l x i : Nat) :
    spriteColor t l x i = spriteColor s l x i := by
  rw [h.state]
  rfl

/-- The compositor changes colours alone, and only of pixels of the picture. -/
theorem composite_color {s t : State} {u : Unit} (h : composite s = .ok u t) : ColorFrame s t := by
  unfold composite at h
  split at h
  · refine forEach_color (fun i s t u hi => ?_) _ h
    exact forEach_color (fun r s t u hr => spriteRow_color hr) _ hi
  · obtain ⟨-, rfl⟩ := Res.ok.inj h
    exact .refl s

/-! ## VBlank, the dot and the run -/

theorem vblankStart_frame (s : State) : DotFrame s (vblankStart s) := by
  unfold vblankStart
  dsimp only
  split
  · rename_i hc
    rw [interrupt_eq]
    exact ⟨⟨rfl, rfl, rfl, ⟨_, rfl⟩, fun _ => .inr hc⟩, rfl, rfl, id, id⟩
  · exact ⟨.ofPpu rfl, rfl, rfl, id, id⟩

/-- What one dot can do. -/
theorem dotAt_frame {l d : Nat} {s t : State} {u : Unit} (h : dotAt l d s = .ok u t) : DotFrame s t := by
  unfold dotAt at h
  dsimp only at h
  refine (dotStart_frame l d s).trans ?_
  generalize s.mapPpu (Ppu.dotStart l d) = s1 at h
  obtain ⟨u2, s2, h2, h⟩ := Res.bind_eq_ok.1 h
  refine DotFrame.trans (t := s2) ?_ ?_
  · split at h2
    · rename_i hc
      exact bgPixel_frame h2 hc.1 hc.2
    · obtain ⟨-, rfl⟩ := Res.ok.inj h2
      exact .refl s1
  obtain ⟨u3, s3, h3, h⟩ := Res.bind_eq_ok.1 h
  refine DotFrame.trans (t := s3) ?_ ?_
  · split at h3
    · exact sprite0Check_frame h3
    · obtain ⟨-, rfl⟩ := Res.ok.inj h3
      exact .refl s2
  refine (scroll_frame l d s3).trans ?_
  generalize s3.mapPpu (Ppu.scroll l d) = s4 at h
  split at h
  · obtain ⟨u5, s5, h5, h⟩ := Res.bind_eq_ok.1 h
    obtain ⟨-, rfl⟩ := Res.ok.inj h
    exact (composite_color h5).dot.trans (vblankStart_frame s5)
  · obtain ⟨-, rfl⟩ := Res.ok.inj h
    exact .refl s4

theorem advance_frame (s : State) : PpuFrame s (s.mapPpu Ppu.advance) := by
  refine .ofPpu ?_
  unfold Ppu.advance
  split <;> rfl

theorem advance_inv {p : Ppu} (k : p.Inv) : p.advance.Inv := by
  have hl := k.lines
  have hd := k.dots
  unfold Ppu.advance
  split
  · refine ⟨?_, Nat.zero_le _, k.ctrl5, k.color, k.bgt, k.oam, k.nt, k.pal⟩
    dsimp only
    split <;> omega
  · exact ⟨k.lines, by dsimp only; omega, k.ctrl5, k.color, k.bgt, k.oam, k.nt, k.pal⟩

theorem DotFrame.ppu_inv {s t : State} (h : DotFrame s t) (k : s.ppu.Inv) : t.ppu.Inv := by
  have hl := h.kept.lines
  have hd := h.kept.dots
  have hc := h.kept.color k.color
  have hb := h.kept.bgt k.bgt
  rw [h.frame.ppu]
  exact ⟨hl ▸ k.lines, hd ▸ k.dots, k.ctrl5, hc, hb, k.oam, k.nt, k.pal⟩

/-- What a PPU run can do, and that it keeps the PPU's part of the invariant. -/
theorem ppuRun_frame {n : Nat} {b frame : Bool} {s t : State} (h : ppuRun n b s = .ok frame t) :
    PpuFrame s t ∧ (s.ppu.Inv → t.ppu.Inv) := by
  induction n generalizing b s with
  | zero =>
    obtain ⟨-, rfl⟩ := Res.ok.inj h
    exact ⟨.refl s, id⟩
  | succ n ih =>
    obtain ⟨u, s1, h1, h2⟩ := Res.bind_eq_ok.1 h
    have f := dotAt_frame h1
    obtain ⟨f2, k2⟩ := ih h2
    exact ⟨(f.frame.trans (advance_frame s1)).trans f2, fun k => k2 (advance_inv (f.ppu_inv k))⟩

/-- With rendering off a dot reads no pattern, so it completes. -/
theorem dotAt_off_completes (l d : Nat) {s : State} (h : s.ppu.rendering = false) : ∃ t, dotAt l d s = .ok () t := by
  have h1 : (s.mapPpu (Ppu.dotStart l d)).ppu.rendering = false := by
    have hm : (s.mapPpu (Ppu.dotStart l d)).ppu.mask = s.ppu.mask := by rw [(dotStart_frame l d s).frame.ppu]
    rw [Ppu.rendering, hm]
    exact h
  unfold dotAt
  dsimp only
  generalize s.mapPpu (Ppu.dotStart l d) = s1 at h1
  have hb : ∃ s2, (if l < 240 ∧ d < 256 then bgPixel l d s1 else .ok () s1) = .ok () s2 ∧ s2.ppu.mask = s1.ppu.mask := by
    split
    · rw [bgPixel, h1]
      exact ⟨_, rfl, rfl⟩
    · exact ⟨s1, rfl, rfl⟩
  obtain ⟨s2, e2, m2⟩ := hb
  have h3 : s1.ppu.mask.getLsbD 3 = false := (Bool.or_eq_false_iff.1 h1).1
  have h4 : s1.ppu.mask.getLsbD 4 = false := (Bool.or_eq_false_iff.1 h1).2
  have hs : ∀ x, sprite0Check l x s2 = .ok () s2 := by
    intro x
    have : s2.ppu.s0Enabled = false := by
      rw [Ppu.s0Enabled, m2, h3, h4, Bool.and_false]
    simp [sprite0Check, this]
  have hs' : (if l < 240 ∧ 2 ≤ d ∧ d ≤ 257 then sprite0Check l (d - 2) s2 else .ok () s2) = .ok () s2 := by
    split
    · exact hs _
    · rfl
  rw [e2, Res.bind_ok, hs', Res.bind_ok]
  split
  · have : (s2.mapPpu (Ppu.scroll l d)).ppu.mask.getLsbD 4 = false := by
      rw [(scroll_frame l d s2).frame.ppu]
      exact m2 ▸ h4
    exact ⟨_, by rw [composite, this]; rfl⟩
  · exact ⟨_, rfl⟩

/-- With rendering off a PPU run of any length completes. -/
theorem ppuRun_off_completes (n : Nat) (b : Bool) {s : State} (h : s.ppu.rendering = false) :
    ∃ frame t, ppuRun n b s = .ok frame t := by
  induction n generalizing b s with
  | zero => exact ⟨b, s, rfl⟩
  | succ n ih =>
    obtain ⟨s1, h1⟩ := dotAt_off_completes s.ppu.lines s.ppu.dots h
    have h2 : (s1.mapPpu Ppu.advance).ppu.rendering = false := by
      have hm : (s1.mapPpu Ppu.advance).ppu.mask = s.ppu.mask := by
        rw [(advance_frame s1).ppu, (dotAt_frame h1).frame.ppu]
      rw [Ppu.rendering, hm]
      exact h
    obtain ⟨frame, t, ht⟩ := ih (b || s1.ppu.lastDot) h2
    exact ⟨frame, t, by rw [ppuRun, h1]; exact ht⟩

/-! ## The APU's run -/

/-- All that an APU run can change: the APU, what a read through the CpuBus changes, the pending cycles, the samples and
their schedule. -/
structure ApuFrame (s t : State) : Prop where
  state : t = { s with apu := t.apu, emu := t.emu, ppu := t.ppu, ctl := t.ctl, draws := t.draws, sampleIn := t.sampleIn,
                       samples := t.samples }
  emu : t.emu = { s.emu with pendingCycles := t.emu.pendingCycles }
  ppu : t.ppu = { s.ppu with vblank := t.ppu.vblank, w := t.ppu.w, rdbuf := t.ppu.rdbuf, v := t.ppu.v }
  pad0 : t.ctl.pad0 = { s.ctl.pad0 with index := t.ctl.pad0.index }
  pad1 : t.ctl.pad1 = { s.ctl.pad1 with index := t.ctl.pad1.index }
  strobe : t.ctl.strobe = s.ctl.strobe

theorem ApuFrame.refl (s : State) : ApuFrame s s := ⟨rfl, rfl, rfl, rfl, rfl, rfl⟩

theorem ApuFrame.trans {s t u : State} (h : ApuFrame s t) (k : ApuFrame t u) : ApuFrame s u where
  state := by rw [k.state, h.state]
  emu := by rw [k.emu, h.emu]
  ppu := by rw [k.ppu, h.ppu]
  pad0 := by rw [k.pad0, h.pad0]
  pad1 := by rw [k.pad1, h.pad1]
  strobe := k.strobe.trans h.strobe

/-- The invariant's parts that an APU run touches. -/
structure ApuKept (s t : State) : Prop where
  apu : s.apu.Inv → t.apu.Inv
  ppu : s.ppu.Inv → t.ppu.Inv
  index0 : s.ctl.pad0.index ≤ 8 → t.ctl.pad0.index ≤ 8
  index1 : s.ctl.pad1.index ≤ 8 → t.ctl.pad1.index ≤ 8
  sampleLow : 1 ≤ s.sampleIn → 1 ≤ t.sampleIn
  sampleHigh : s.sampleIn ≤ 41 → t.sampleIn ≤ 41

theorem ApuKept.refl (s : State) : ApuKept s s := ⟨id, id, id, id, id, id⟩

theorem ApuKept.trans {s t u : State} (h : ApuKept s t) (k : ApuKept t u) : ApuKept s u :=
  ⟨fun x => k.apu (h.apu x), fun x => k.ppu (h.ppu x), fun x => k.index0 (h.index0 x), fun x => k.index1 (h.index1 x),
    fun x => k.sampleLow (h.sampleLow x), fun x => k.sampleHigh (h.sampleHigh x)⟩

theorem Dmc.outputClock_bitsLeft (d : Dmc) (h1 : 1 ≤ d.bitsLeft.toNat) (h8 : d.bitsLeft.toNat ≤ 8) :
    1 ≤ d.outputClock.bitsLeft.toNat ∧ d.outputClock.bitsLeft.toNat ≤ 8 := by
  have hb : ∀ e : Dmc, e.bitsLeft = d.bitsLeft →
      (e.bitsLeft - 1 = 0 ∨ (1 ≤ (e.bitsLeft - 1).toNat ∧ (e.bitsLeft - 1).toNat ≤ 8)) := by
    intro e he
    rw [he]
    by_cases hz : d.bitsLeft.toNat = 1
    · left
      apply BitVec.eq_of_toNat_eq
      simp [BitVec.toNat_sub, hz]
    · right
      constructor <;> bv_omega
  unfold Dmc.outputClock
  dsimp only
  generalize hd1 : (if d.silence = true then d
    else if d.shift.getLsbD 0 = true then { d with level := if d.level.toNat ≤ 125 then d.level + 2 else d.level }
    else { d with level := if 2 ≤ d.level.toNat then d.level - 2 else d.level }) = d1
  have he : d1.bitsLeft = d.bitsLeft := by
    rw [← hd1]
    split
    · rfl
    · split <;> rfl
  split
  · split <;> simp
  · rename_i hne
    rcases hb d1 he with h | h
    · exact absurd h hne
    · exact h

theorem Dmc.clockTimer_bitsLeft (d : Dmc) (h1 : 1 ≤ d.bitsLeft.toNat) (h8 : d.bitsLeft.toNat ≤ 8) :
    1 ≤ d.clockTimer.bitsLeft.toNat ∧ d.clockTimer.bitsLeft.toNat ≤ 8 := by
  unfold Dmc.clockTimer
  split
  · exact Dmc.outputClock_bitsLeft _ h1 h8
  · exact ⟨h1, h8⟩

theorem Noise.clockTimer_shift (n : Noise) (h : n.shift ≠ 0) : n.clockTimer.shift ≠ 0 := by
  unfold Noise.clockTimer
  split
  · intro hz
    apply h
    dsimp only at hz
    have hbit : ∀ k, k < 15 → (BitVec.ofBool n.feedback ++ n.shift.extractLsb' 1 14).getLsbD k = false := by
      intro k _
      rw [hz]
      simp
    have hup : ∀ k, 1 ≤ k → k < 15 → n.shift.getLsbD k = false := by
      intro k h1 h2
      have := hbit (k - 1) (by omega)
      rw [BitVec.getLsbD_append] at this
      simp only [show k - 1 < 14 by omega, BitVec.getLsbD_extractLsb', decide_true, Bool.true_and, if_true] at this
      rwa [show 1 + (k - 1) = k by omega] at this
    have hfb : n.feedback = false := by
      have := hbit 14 (by decide)
      rw [BitVec.getLsbD_append] at this
      simpa using this
    apply BitVec.eq_of_getLsbD_eq
    intro k hk
    by_cases hk0 : k = 0
    · subst hk0
      unfold Noise.feedback at hfb
      rw [hup 6 (by decide) (by decide), hup 1 (by decide) (by decide)] at hfb
      simpa using hfb
    · simpa using hup k (by omega) hk
  · exact h

theorem Apu.stepEvent_parts (mode : Bool) (step : Nat) (a : Apu) :
    (a.stepEvent mode step).dmc = a.dmc ∧ (a.stepEvent mode step).noise.shift = a.noise.shift ∧
      (a.stepEvent mode step).fs = a.fs ∧ (a.stepEvent mode step).cycle = a.cycle := by
  unfold Apu.stepEvent
  dsimp only
  split <;> split <;> exact ⟨rfl, rfl, rfl, rfl⟩

theorem Apu.frameTick_inv (n : Nat) {a : Apu} (k : a.Inv) : (a.frameTick n).Inv ∧ (a.frameTick n).cycle = a.cycle := by
  unfold Apu.frameTick
  split
  · obtain ⟨h1, h2, h3, h4⟩ := Apu.stepEvent_parts a.fs.mode a.fs.step a
    dsimp only
    refine ⟨⟨?_, ?_, ?_, ?_⟩, h4⟩
    · rw [h1]; exact k.bitsLeftLow
    · rw [h1]; exact k.bitsLeftHigh
    · rw [h3]
      exact Nat.mod_lt _ (by split <;> decide)
    · rw [h2]; exact k.shift
  · exact ⟨⟨k.bitsLeftLow, k.bitsLeftHigh, k.step, k.shift⟩, rfl⟩

/-- One CPU cycle of the APU keeps its part of the invariant and counts the cycle. -/
theorem Apu.tick_inv (n : Nat) {a : Apu} (k : a.Inv) : (a.tick n).Inv := by
  obtain ⟨k1, -⟩ := Apu.frameTick_inv n k
  obtain ⟨h1, h2⟩ := Dmc.clockTimer_bitsLeft _ k1.bitsLeftLow k1.bitsLeftHigh
  unfold Apu.tick
  dsimp only
  split
  · exact ⟨h1, h2, k1.step, Noise.clockTimer_shift _ k1.shift⟩
  · exact ⟨h1, h2, k1.step, k1.shift⟩

theorem Apu.tick_cycle (n : Nat) (a : Apu) : (a.tick n).cycle = a.cycle + 1 := by
  have h : (a.frameTick n).cycle = a.cycle := by
    unfold Apu.frameTick
    split
    · exact (Apu.stepEvent_parts a.fs.mode a.fs.step a).2.2.2
    · rfl
  unfold Apu.tick
  dsimp only
  split <;> (dsimp only; rw [h])

theorem Dmc.fetched_bitsLeft (b : Byte) (d : Dmc) : (d.fetched b).bitsLeft = d.bitsLeft := by
  unfold Dmc.fetched
  dsimp only
  split <;> rfl

theorem dmcFetchCheck_frame {s t : State} {u : Unit} (h : dmcFetchCheck s = .ok u t) :
    ApuFrame s t ∧ ApuKept s t ∧ t.apu.cycle = s.apu.cycle := by
  unfold dmcFetchCheck at h
  split at h
  · obtain ⟨b, s1, h1, h2⟩ := Res.bind_eq_ok.1 h
    obtain ⟨-, rfl⟩ := Res.ok.inj h2
    have f := busRead_frame h1
    refine ⟨⟨?_, ?_, f.ppu, f.pad0, f.pad1, f.strobe⟩, ⟨?_, f.ppu_inv, f.index0, f.index1, ?_, ?_⟩, ?_⟩
    · simp only [State.addPending, State.mapEmu, State.mapApu]
      rw [f.state]
    · simp only [State.addPending_emu, State.mapApu_emu, f.emu]
    · intro k
      simp only [State.addPending_apu, State.mapApu_apu, f.apu]
      exact ⟨by dsimp only; rw [Dmc.fetched_bitsLeft]; exact k.bitsLeftLow,
        by dsimp only; rw [Dmc.fetched_bitsLeft]; exact k.bitsLeftHigh, k.step, k.shift⟩
    · simp only [State.addPending_sampleIn, State.mapApu_sampleIn, f.sampleIn]
      exact id
    · simp only [State.addPending_sampleIn, State.mapApu_sampleIn, f.sampleIn]
      exact id
    · simp only [State.addPending_apu, State.mapApu_apu, f.apu]
  · obtain ⟨-, rfl⟩ := Res.ok.inj h
    exact ⟨.refl s, .refl s, rfl⟩

theorem sampleOut_frame (s : State) :
    ApuFrame s (sampleOut s) ∧ ApuKept s (sampleOut s) ∧ (sampleOut s).apu = s.apu := by
  unfold sampleOut
  split
  · refine ⟨⟨rfl, rfl, rfl, rfl, rfl, rfl⟩, ⟨id, id, id, id, fun _ => ?_, fun _ => ?_⟩, rfl⟩
    · dsimp only; split <;> decide
    · dsimp only; split <;> decide
  · rename_i hs
    exact ⟨⟨rfl, rfl, rfl, rfl, rfl, rfl⟩, ⟨id, id, id, id, fun _ => by dsimp only; omega, fun _ => by dsimp only; omega⟩, rfl⟩

theorem apuCycle_frame {s t : State} {u : Unit} (h : apuCycle s = .ok u t) :
    ApuFrame s t ∧ ApuKept s t ∧ t.apu.cycle = s.apu.cycle + 1 := by
  unfold apuCycle at h
  obtain ⟨u1, s1, h1, h2⟩ := Res.bind_eq_ok.1 h
  obtain ⟨-, rfl⟩ := Res.ok.inj h2
  obtain ⟨f1, k1, c1⟩ := dmcFetchCheck_frame h1
  obtain ⟨f2, k2, c2⟩ := sampleOut_frame s1
  have f0 : ApuFrame s (s.mapApu (Apu.tick s.params.fsStepCycles)) := ⟨rfl, rfl, rfl, rfl, rfl, rfl⟩
  have k0 : ApuKept s (s.mapApu (Apu.tick s.params.fsStepCycles)) := ⟨Apu.tick_inv _, id, id, id, id, id⟩
  refine ⟨(f0.trans f1).trans f2, (k0.trans k1).trans k2, ?_⟩
  rw [c2, c1]
  exact Apu.tick_cycle _ _

/-- What an APU run can do; it counts its cycles and keeps the invariant's parts. -/
theorem apuRun_frame {c : Nat} {s t : State} {u : Unit} (h : apuRun c s = .ok u t) :
    ApuFrame s t ∧ ApuKept s t ∧ t.apu.cycle = s.apu.cycle + c := by
  induction c generalizing s with
  | zero =>
    obtain ⟨-, rfl⟩ := Res.ok.inj h
    exact ⟨.refl s, .refl s, rfl⟩
  | succ c ih =>
    obtain ⟨u1, s1, h1, h2⟩ := Res.bind_eq_ok.1 h
    obtain ⟨f1, k1, c1⟩ := apuCycle_frame h1
    obtain ⟨f2, k2, c2⟩ := ih h2
    exact ⟨f1.trans f2, k1.trans k2, by omega⟩

/-! ## OAM DMA and the fetch -/

/-- All that the OAM-DMA copy can change: what reads change, and OAM, within its size. -/
theorem dmaCopy_frame {n i : Nat} {s t : State} {u : Unit} (h : dmaCopy n i s = .ok u t) (hn : i + n ≤ 256) :
    t = { s with ppu := t.ppu, ctl := t.ctl, draws := t.draws } ∧
      t.ppu = { s.ppu with vblank := t.ppu.vblank, w := t.ppu.w, rdbuf := t.ppu.rdbuf, v := t.ppu.v, oam := t.ppu.oam } ∧
      t.ctl.pad0.buttons = s.ctl.pad0.buttons ∧ t.ctl.pad1.buttons = s.ctl.pad1.buttons ∧ (s.Inv → t.Inv) := by
  induction n generalizing i s with
  | zero =>
    obtain ⟨-, rfl⟩ := Res.ok.inj h
    exact ⟨rfl, rfl, rfl, rfl, id⟩
  | succ n ih =>
    obtain ⟨b, s1, h1, h2⟩ := Res.bind_eq_ok.1 h
    have f := busRead_frame h1
    obtain ⟨a1, a2, a3, a4, a5⟩ := ih h2 (by omega)
    refine ⟨?_, ?_, ?_, ?_, ?_⟩
    · rw [a1, State.mapPpu, f.state]
    · rw [a2, State.mapPpu_ppu, f.ppu]
    · rw [a3, State.mapPpu_ctl, f.pad0]
    · rw [a4, State.mapPpu_ctl, f.pad1]
    · intro k
      have k1 := f.inv k
      refine a5 ⟨⟨k1.ppu.lines, k1.ppu.dots, k1.ppu.ctrl5, k1.ppu.color, k1.ppu.bgt,
        Memory.sized_write _ (by omega) k1.ppu.oam, k1.ppu.nt, k1.ppu.pal⟩, k1.apu, k1.cart, k1.wram, k1.prgRam,
        k1.index0, k1.index1, k1.cycles, k1.insCycles, k1.sampleLow, k1.sampleHigh⟩

/-- All that `runDma` can change; it keeps the invariant. -/
theorem runDma_frame {s t : State} {n : Nat} (h : runDma s = .ok n t) :
    t = { s with ppu := t.ppu, ctl := t.ctl, draws := t.draws, bus := t.bus } ∧
      t.ppu = { s.ppu with vblank := t.ppu.vblank, w := t.ppu.w, rdbuf := t.ppu.rdbuf, v := t.ppu.v, oam := t.ppu.oam } ∧
      t.ctl.pad0.buttons = s.ctl.pad0.buttons ∧ t.ctl.pad1.buttons = s.ctl.pad1.buttons ∧ (s.Inv → t.Inv) := by
  unfold runDma at h
  split at h
  · split at h
    · cases h
    · obtain ⟨u, s1, h1, h2⟩ := Res.bind_eq_ok.1 h
      obtain ⟨-, rfl⟩ := Res.ok.inj h2
      obtain ⟨a1, a2, a3, a4, a5⟩ := dmaCopy_frame h1 (by decide)
      refine ⟨?_, a2, a3, a4, fun k => ?_⟩
      · rw [State.mapBus, a1]
      · have k1 := a5 k
        exact ⟨k1.ppu, k1.apu, k1.cart, k1.wram, k1.prgRam, k1.index0, k1.index1, k1.cycles, k1.insCycles,
          k1.sampleLow, k1.sampleHigh⟩
  · obtain ⟨-, rfl⟩ := Res.ok.inj h
    exact ⟨rfl, rfl, rfl, rfl, id⟩

/-- A fetch is reads alone. -/
theorem fetch_frame {s t : State} {i : Instr} (h : fetch s = .ok i t) : ReadFrame s t := by
  unfold fetch at h
  obtain ⟨op, s1, h1, h⟩ := Res.bind_eq_ok.1 h
  have f1 := busRead_frame h1
  split at h
  · obtain ⟨-, rfl⟩ := Res.ok.inj h
    exact f1
  · obtain ⟨b1, s2, h2, h⟩ := Res.bind_eq_ok.1 h
    obtain ⟨-, rfl⟩ := Res.ok.inj h
    exact f1.trans (busRead_frame h2)
  · obtain ⟨b1, s2, h2, h⟩ := Res.bind_eq_ok.1 h
    obtain ⟨b2, s3, h3, h⟩ := Res.bind_eq_ok.1 h
    obtain ⟨-, rfl⟩ := Res.ok.inj h
    exact (f1.trans (busRead_frame h2)).trans (busRead_frame h3)

/-! ## A completed step, in its parts -/

/-- A step that completes is a DMA, a fetch, an instruction, a PPU run and an APU run that each complete. -/
theorem step_next {s t : State} (h : step s = .next t) :
    ∃ dma s1 i s2 s3 frame s4 s5, runDma s = .ok dma s1 ∧ fetch s1 = .ok i s2 ∧ exec i s2 = .next s3 ∧
      ppuRun (3 * stepCycles dma s3) false (countStep dma s3) = .ok frame s4 ∧
      apuRun (stepCycles dma s3) s4 = .ok () s5 ∧ t = { s5 with frameDone := frame } := by
  unfold step at h
  split at h
  · cases h
  · rename_i dma s1 h1
    split at h
    · cases h
    · rename_i i s2 h2
      split at h
      · cases h
      · cases h
      · rename_i s3 h3
        obtain ⟨u, h4⟩ := Res.outcome_eq_next.1 h
        unfold catchUp Res.atPc at h4
        split at h4
        · rename_i hr
          obtain ⟨frame, s4, h5, h6⟩ := Res.bind_eq_ok.1 hr
          obtain ⟨u', s5, h7, h8⟩ := Res.bind_eq_ok.1 h6
          obtain ⟨-, rfl⟩ := Res.ok.inj h4
          obtain ⟨-, rfl⟩ := Res.ok.inj h8
          exact ⟨dma, s1, i, s2, s3, frame, s4, s5, h1, h2, h3, h5, h7, rfl⟩
        · cases h4

/-! ## The host's calls -/

theorem State.Inv.setSamples {s : State} (k : s.Inv) (l : List Sample) : (s.setSamples l).Inv :=
  ⟨k.ppu, k.apu, k.cart, k.wram, k.prgRam, k.index0, k.index1, k.cycles, k.insCycles, k.sampleLow, k.sampleHigh⟩

/-- `stepFrame` ends at the step that completes a frame, with that step's state. -/
theorem stepFrame_done {n : Nat} {s t : State} (h : step (s.setSamples []) = .next t) (hf : t.frameDone = true) :
    stepFrame (n + 1) s = some (.next t) := by
  rw [stepFrame, h]
  exact if_pos hf

/-- `stepFrame` goes on after a step that completes no frame, that step's samples first. -/
theorem stepFrame_continues {n : Nat} {s t : State} (h : step (s.setSamples []) = .next t) (hf : t.frameDone = false) :
    stepFrame (n + 1) s = (stepFrame n t).map (afterSamples t.samples) := by
  rw [stepFrame, h]
  exact if_neg (by rw [hf]; decide)

/-- `stepFrame` ends at a step that faults. -/
theorem stepFrame_faults {n : Nat} {s : State} {f : Fault} (h : step (s.setSamples []) = .fault f) :
    stepFrame (n + 1) s = some (.fault f) := by
  rw [stepFrame, h]

/-- The call that starts the machine answers a first state exactly for a buffer that is a cassette. -/
theorem initializeFrom_ok {p : Params} {l : Launch} {buffer : List Byte} {s : State} :
    initializeFrom p l buffer = .ok s ↔ ∃ c, Cart.ofImage buffer = .ok c ∧ s = start p l c := by
  unfold initializeFrom
  cases Cart.ofImage buffer with
  | ok c => exact ⟨fun h => ⟨c, rfl, (Except.ok.inj h).symm⟩, fun ⟨c', h, e⟩ => by rw [e, Except.ok.inj h]⟩
  | error f => exact ⟨nofun, fun ⟨_, h, _⟩ => nomatch h⟩

end Sys2Proof.Machine
end

