-- ==== Sys2Proof/Tests/Slice0.lean ====
section
/-! SUPPORT. Our own tests: ill-formed terms refused, every constructor's word decoded, one-step tests whose expected results
are the vectors of 95_test_vectors.md, and for every statement with hypotheses a witness that meets them. -/

namespace Sys2Proof.Tests

open Sys2Proof.Machine

/-! ## WellFormed: a displacement out of range is refused (30_encoding.md R175) -/

theorem test_wellFormed_bcc : ¬(Instr.bcc 128).WellFormed ∧ ¬(Instr.bcc (-129)).WellFormed ∧ (Instr.bcc 127).WellFormed ∧ (Instr.bcc (-128)).WellFormed := by
  decide

theorem test_wellFormed_bcs : ¬(Instr.bcs 128).WellFormed ∧ ¬(Instr.bcs (-129)).WellFormed ∧ (Instr.bcs 127).WellFormed ∧ (Instr.bcs (-128)).WellFormed := by
  decide

theorem test_wellFormed_beq : ¬(Instr.beq 128).WellFormed ∧ ¬(Instr.beq (-129)).WellFormed ∧ (Instr.beq 127).WellFormed ∧ (Instr.beq (-128)).WellFormed := by
  decide

theorem test_wellFormed_bne : ¬(Instr.bne 128).WellFormed ∧ ¬(Instr.bne (-129)).WellFormed ∧ (Instr.bne 127).WellFormed ∧ (Instr.bne (-128)).WellFormed := by
  decide

theorem test_wellFormed_bmi : ¬(Instr.bmi 128).WellFormed ∧ ¬(Instr.bmi (-129)).WellFormed ∧ (Instr.bmi 127).WellFormed ∧ (Instr.bmi (-128)).WellFormed := by
  decide

theorem test_wellFormed_bpl : ¬(Instr.bpl 128).WellFormed ∧ ¬(Instr.bpl (-129)).WellFormed ∧ (Instr.bpl 127).WellFormed ∧ (Instr.bpl (-128)).WellFormed := by
  decide

theorem test_wellFormed_bvc : ¬(Instr.bvc 128).WellFormed ∧ ¬(Instr.bvc (-129)).WellFormed ∧ (Instr.bvc 127).WellFormed ∧ (Instr.bvc (-128)).WellFormed := by
  decide

theorem test_wellFormed_bvs : ¬(Instr.bvs 128).WellFormed ∧ ¬(Instr.bvs (-129)).WellFormed ∧ (Instr.bvs 127).WellFormed ∧ (Instr.bvs (-128)).WellFormed := by
  decide

/-! ## Decoding: a word of every row, written from its encoding (30_encoding.md R163 to R166, R172)

Operand byte 1 is 0x34, or 0xF0 (the displacement −16) for a branch; a 16-bit operand is 0x1234. -/

theorem test_decode_row0 :
    decodeTableWord 8 0x00 = some .brk ∧ decodeTableWord 16 0x3401 = some (.oraIzx 0x34) ∧
    decodeTableWord 8 0x02 = some .jam02 ∧ decodeTableWord 16 0x3403 = some (.sloIzx 0x34) ∧
    decodeTableWord 16 0x3404 = some (.nop04 0x34) ∧ decodeTableWord 16 0x3405 = some (.oraZp 0x34) ∧
    decodeTableWord 16 0x3406 = some (.aslZp 0x34) ∧ decodeTableWord 16 0x3407 = some (.sloZp 0x34) ∧
    decodeTableWord 8 0x08 = some .php ∧ decodeTableWord 16 0x3409 = some (.oraImm 0x34) ∧
    decodeTableWord 8 0x0A = some .aslAcc ∧ decodeTableWord 16 0x340B = some (.anc0B 0x34) ∧
    decodeTableWord 24 0x12340C = some (.nop0C 0x1234) ∧ decodeTableWord 24 0x12340D = some (.oraAbs 0x1234) ∧
    decodeTableWord 24 0x12340E = some (.aslAbs 0x1234) ∧ decodeTableWord 24 0x12340F = some (.sloAbs 0x1234) := by
  decide

theorem test_decode_row1 :
    decodeTableWord 16 0xF010 = some (.bpl (-16)) ∧ decodeTableWord 16 0x3411 = some (.oraIzy 0x34) ∧
    decodeTableWord 8 0x12 = some .jam12 ∧ decodeTableWord 16 0x3413 = some (.sloIzy 0x34) ∧
    decodeTableWord 16 0x3414 = some (.nop14 0x34) ∧ decodeTableWord 16 0x3415 = some (.oraZpx 0x34) ∧
    decodeTableWord 16 0x3416 = some (.aslZpx 0x34) ∧ decodeTableWord 16 0x3417 = some (.sloZpx 0x34) ∧
    decodeTableWord 8 0x18 = some .clc ∧ decodeTableWord 24 0x123419 = some (.oraAby 0x1234) ∧
    decodeTableWord 8 0x1A = some .nop1A ∧ decodeTableWord 24 0x12341B = some (.sloAby 0x1234) ∧
    decodeTableWord 24 0x12341C = some (.nop1C 0x1234) ∧ decodeTableWord 24 0x12341D = some (.oraAbx 0x1234) ∧
    decodeTableWord 24 0x12341E = some (.aslAbx 0x1234) ∧ decodeTableWord 24 0x12341F = some (.sloAbx 0x1234) := by
  decide

theorem test_decode_row2 :
    decodeTableWord 24 0x123420 = some (.jsr 0x1234) ∧ decodeTableWord 16 0x3421 = some (.andIzx 0x34) ∧
    decodeTableWord 8 0x22 = some .jam22 ∧ decodeTableWord 16 0x3423 = some (.rlaIzx 0x34) ∧
    decodeTableWord 16 0x3424 = some (.bitZp 0x34) ∧ decodeTableWord 16 0x3425 = some (.andZp 0x34) ∧
    decodeTableWord 16 0x3426 = some (.rolZp 0x34) ∧ decodeTableWord 16 0x3427 = some (.rlaZp 0x34) ∧
    decodeTableWord 8 0x28 = some .plp ∧ decodeTableWord 16 0x3429 = some (.andImm 0x34) ∧
    decodeTableWord 8 0x2A = some .rolAcc ∧ decodeTableWord 16 0x342B = some (.anc2B 0x34) ∧
    decodeTableWord 24 0x12342C = some (.bitAbs 0x1234) ∧ decodeTableWord 24 0x12342D = some (.andAbs 0x1234) ∧
    decodeTableWord 24 0x12342E = some (.rolAbs 0x1234) ∧ decodeTableWord 24 0x12342F = some (.rlaAbs 0x1234) := by
  decide

theorem test_decode_row3 :
    decodeTableWord 16 0xF030 = some (.bmi (-16)) ∧ decodeTableWord 16 0x3431 = some (.andIzy 0x34) ∧
    decodeTableWord 8 0x32 = some .jam32 ∧ decodeTableWord 16 0x3433 = some (.rlaIzy 0x34) ∧
    decodeTableWord 16 0x3434 = some (.nop34 0x34) ∧ decodeTableWord 16 0x3435 = some (.andZpx 0x34) ∧
    decodeTableWord 16 0x3436 = some (.rolZpx 0x34) ∧ decodeTableWord 16 0x3437 = some (.rlaZpx 0x34) ∧
    decodeTableWord 8 0x38 = some .sec ∧ decodeTableWord 24 0x123439 = some (.andAby 0x1234) ∧
    decodeTableWord 8 0x3A = some .nop3A ∧ decodeTableWord 24 0x12343B = some (.rlaAby 0x1234) ∧
    decodeTableWord 24 0x12343C = some (.nop3C 0x1234) ∧ decodeTableWord 24 0x12343D = some (.andAbx 0x1234) ∧
    decodeTableWord 24 0x12343E = some (.rolAbx 0x1234) ∧ decodeTableWord 24 0x12343F = some (.rlaAbx 0x1234) := by
  decide

theorem test_decode_row4 :
    decodeTableWord 8 0x40 = some .rti ∧ decodeTableWord 16 0x3441 = some (.eorIzx 0x34) ∧
    decodeTableWord 8 0x42 = some .jam42 ∧ decodeTableWord 16 0x3443 = some (.sreIzx 0x34) ∧
    decodeTableWord 16 0x3444 = some (.nop44 0x34) ∧ decodeTableWord 16 0x3445 = some (.eorZp 0x34) ∧
    decodeTableWord 16 0x3446 = some (.lsrZp 0x34) ∧ decodeTableWord 16 0x3447 = some (.sreZp 0x34) ∧
    decodeTableWord 8 0x48 = some .pha ∧ decodeTableWord 16 0x3449 = some (.eorImm 0x34) ∧
    decodeTableWord 8 0x4A = some .lsrAcc ∧ decodeTableWord 16 0x344B = some (.alrImm 0x34) ∧
    decodeTableWord 24 0x12344C = some (.jmpAbs 0x1234) ∧ decodeTableWord 24 0x12344D = some (.eorAbs 0x1234) ∧
    decodeTableWord 24 0x12344E = some (.lsrAbs 0x1234) ∧ decodeTableWord 24 0x12344F = some (.sreAbs 0x1234) := by
  decide

theorem test_decode_row5 :
    decodeTableWord 16 0xF050 = some (.bvc (-16)) ∧ decodeTableWord 16 0x3451 = some (.eorIzy 0x34) ∧
    decodeTableWord 8 0x52 = some .jam52 ∧ decodeTableWord 16 0x3453 = some (.sreIzy 0x34) ∧
    decodeTableWord 16 0x3454 = some (.nop54 0x34) ∧ decodeTableWord 16 0x3455 = some (.eorZpx 0x34) ∧
    decodeTableWord 16 0x3456 = some (.lsrZpx 0x34) ∧ decodeTableWord 16 0x3457 = some (.sreZpx 0x34) ∧
    decodeTableWord 8 0x58 = some .cli ∧ decodeTableWord 24 0x123459 = some (.eorAby 0x1234) ∧
    decodeTableWord 8 0x5A = some .nop5A ∧ decodeTableWord 24 0x12345B = some (.sreAby 0x1234) ∧
    decodeTableWord 24 0x12345C = some (.nop5C 0x1234) ∧ decodeTableWord 24 0x12345D = some (.eorAbx 0x1234) ∧
    decodeTableWord 24 0x12345E = some (.lsrAbx 0x1234) ∧ decodeTableWord 24 0x12345F = some (.sreAbx 0x1234) := by
  decide

theorem test_decode_row6 :
    decodeTableWord 8 0x60 = some .rts ∧ decodeTableWord 16 0x3461 = some (.adcIzx 0x34) ∧
    decodeTableWord 8 0x62 = some .jam62 ∧ decodeTableWord 16 0x3463 = some (.rraIzx 0x34) ∧
    decodeTableWord 16 0x3464 = some (.nop64 0x34) ∧ decodeTableWord 16 0x3465 = some (.adcZp 0x34) ∧
    decodeTableWord 16 0x3466 = some (.rorZp 0x34) ∧ decodeTableWord 16 0x3467 = some (.rraZp 0x34) ∧
    decodeTableWord 8 0x68 = some .pla ∧ decodeTableWord 16 0x3469 = some (.adcImm 0x34) ∧
    decodeTableWord 8 0x6A = some .rorAcc ∧ decodeTableWord 16 0x346B = some (.arrImm 0x34) ∧
    decodeTableWord 24 0x12346C = some (.jmpInd 0x1234) ∧ decodeTableWord 24 0x12346D = some (.adcAbs 0x1234) ∧
    decodeTableWord 24 0x12346E = some (.rorAbs 0x1234) ∧ decodeTableWord 24 0x12346F = some (.rraAbs 0x1234) := by
  decide

theorem test_decode_row7 :
    decodeTableWord 16 0xF070 = some (.bvs (-16)) ∧ decodeTableWord 16 0x3471 = some (.adcIzy 0x34) ∧
    decodeTableWord 8 0x72 = some .jam72 ∧ decodeTableWord 16 0x3473 = some (.rraIzy 0x34) ∧
    decodeTableWord 16 0x3474 = some (.nop74 0x34) ∧ decodeTableWord 16 0x3475 = some (.adcZpx 0x34) ∧
    decodeTableWord 16 0x3476 = some (.rorZpx 0x34) ∧ decodeTableWord 16 0x3477 = some (.rraZpx 0x34) ∧
    decodeTableWord 8 0x78 = some .sei ∧ decodeTableWord 24 0x123479 = some (.adcAby 0x1234) ∧
    decodeTableWord 8 0x7A = some .nop7A ∧ decodeTableWord 24 0x12347B = some (.rraAby 0x1234) ∧
    decodeTableWord 24 0x12347C = some (.nop7C 0x1234) ∧ decodeTableWord 24 0x12347D = some (.adcAbx 0x1234) ∧
    decodeTableWord 24 0x12347E = some (.rorAbx 0x1234) ∧ decodeTableWord 24 0x12347F = some (.rraAbx 0x1234) := by
  decide

theorem test_decode_row8 :
    decodeTableWord 16 0x3480 = some (.nop80 0x34) ∧ decodeTableWord 16 0x3481 = some (.staIzx 0x34) ∧
    decodeTableWord 16 0x3482 = some (.nop82 0x34) ∧ decodeTableWord 16 0x3483 = some (.saxIzx 0x34) ∧
    decodeTableWord 16 0x3484 = some (.styZp 0x34) ∧ decodeTableWord 16 0x3485 = some (.staZp 0x34) ∧
    decodeTableWord 16 0x3486 = some (.stxZp 0x34) ∧ decodeTableWord 16 0x3487 = some (.saxZp 0x34) ∧
    decodeTableWord 8 0x88 = some .dey ∧ decodeTableWord 16 0x3489 = some (.nop89 0x34) ∧
    decodeTableWord 8 0x8A = some .txa ∧ decodeTableWord 16 0x348B = some (.xaaImm 0x34) ∧
    decodeTableWord 24 0x12348C = some (.styAbs 0x1234) ∧ decodeTableWord 24 0x12348D = some (.staAbs 0x1234) ∧
    decodeTableWord 24 0x12348E = some (.stxAbs 0x1234) ∧ decodeTableWord 24 0x12348F = some (.saxAbs 0x1234) := by
  decide

theorem test_decode_row9 :
    decodeTableWord 16 0xF090 = some (.bcc (-16)) ∧ decodeTableWord 16 0x3491 = some (.staIzy 0x34) ∧
    decodeTableWord 8 0x92 = some .jam92 ∧ decodeTableWord 16 0x3493 = some (.ahxIzy 0x34) ∧
    decodeTableWord 16 0x3494 = some (.styZpx 0x34) ∧ decodeTableWord 16 0x3495 = some (.staZpx 0x34) ∧
    decodeTableWord 16 0x3496 = some (.stxZpy 0x34) ∧ decodeTableWord 16 0x3497 = some (.saxZpy 0x34) ∧
    decodeTableWord 8 0x98 = some .tya ∧ decodeTableWord 24 0x123499 = some (.staAby 0x1234) ∧
    decodeTableWord 8 0x9A = some .txs ∧ decodeTableWord 24 0x12349B = some (.tasAby 0x1234) ∧
    decodeTableWord 24 0x12349C = some (.shyAbx 0x1234) ∧ decodeTableWord 24 0x12349D = some (.staAbx 0x1234) ∧
    decodeTableWord 24 0x12349E = some (.shxAby 0x1234) ∧ decodeTableWord 24 0x12349F = some (.ahxAby 0x1234) := by
  decide

theorem test_decode_rowA :
    decodeTableWord 16 0x34A0 = some (.ldyImm 0x34) ∧ decodeTableWord 16 0x34A1 = some (.ldaIzx 0x34) ∧
    decodeTableWord 16 0x34A2 = some (.ldxImm 0x34) ∧ decodeTableWord 16 0x34A3 = some (.laxIzx 0x34) ∧
    decodeTableWord 16 0x34A4 = some (.ldyZp 0x34) ∧ decodeTableWord 16 0x34A5 = some (.ldaZp 0x34) ∧
    decodeTableWord 16 0x34A6 = some (.ldxZp 0x34) ∧ decodeTableWord 16 0x34A7 = some (.laxZp 0x34) ∧
    decodeTableWord 8 0xA8 = some .tay ∧ decodeTableWord 16 0x34A9 = some (.ldaImm 0x34) ∧
    decodeTableWord 8 0xAA = some .tax ∧ decodeTableWord 16 0x34AB = some (.lxaImm 0x34) ∧
    decodeTableWord 24 0x1234AC = some (.ldyAbs 0x1234) ∧ decodeTableWord 24 0x1234AD = some (.ldaAbs 0x1234) ∧
    decodeTableWord 24 0x1234AE = some (.ldxAbs 0x1234) ∧ decodeTableWord 24 0x1234AF = some (.laxAbs 0x1234) := by
  decide

theorem test_decode_rowB :
    decodeTableWord 16 0xF0B0 = some (.bcs (-16)) ∧ decodeTableWord 16 0x34B1 = some (.ldaIzy 0x34) ∧
    decodeTableWord 8 0xB2 = some .jamB2 ∧ decodeTableWord 16 0x34B3 = some (.laxIzy 0x34) ∧
    decodeTableWord 16 0x34B4 = some (.ldyZpx 0x34) ∧ decodeTableWord 16 0x34B5 = some (.ldaZpx 0x34) ∧
    decodeTableWord 16 0x34B6 = some (.ldxZpy 0x34) ∧ decodeTableWord 16 0x34B7 = some (.laxZpy 0x34) ∧
    decodeTableWord 8 0xB8 = some .clv ∧ decodeTableWord 24 0x1234B9 = some (.ldaAby 0x1234) ∧
    decodeTableWord 8 0xBA = some .tsx ∧ decodeTableWord 24 0x1234BB = some (.lasAby 0x1234) ∧
    decodeTableWord 24 0x1234BC = some (.ldyAbx 0x1234) ∧ decodeTableWord 24 0x1234BD = some (.ldaAbx 0x1234) ∧
    decodeTableWord 24 0x1234BE = some (.ldxAby 0x1234) ∧ decodeTableWord 24 0x1234BF = some (.laxAby 0x1234) := by
  decide

theorem test_decode_rowC :
    decodeTableWord 16 0x34C0 = some (.cpyImm 0x34) ∧ decodeTableWord 16 0x34C1 = some (.cmpIzx 0x34) ∧
    decodeTableWord 16 0x34C2 = some (.nopC2 0x34) ∧ decodeTableWord 16 0x34C3 = some (.dcpIzx 0x34) ∧
    decodeTableWord 16 0x34C4 = some (.cpyZp 0x34) ∧ decodeTableWord 16 0x34C5 = some (.cmpZp 0x34) ∧
    decodeTableWord 16 0x34C6 = some (.decZp 0x34) ∧ decodeTableWord 16 0x34C7 = some (.dcpZp 0x34) ∧
    decodeTableWord 8 0xC8 = some .iny ∧ decodeTableWord 16 0x34C9 = some (.cmpImm 0x34) ∧
    decodeTableWord 8 0xCA = some .dex ∧ decodeTableWord 16 0x34CB = some (.axsImm 0x34) ∧
    decodeTableWord 24 0x1234CC = some (.cpyAbs 0x1234) ∧ decodeTableWord 24 0x1234CD = some (.cmpAbs 0x1234) ∧
    decodeTableWord 24 0x1234CE = some (.decAbs 0x1234) ∧ decodeTableWord 24 0x1234CF = some (.dcpAbs 0x1234) := by
  decide

theorem test_decode_rowD :
    decodeTableWord 16 0xF0D0 = some (.bne (-16)) ∧ decodeTableWord 16 0x34D1 = some (.cmpIzy 0x34) ∧
    decodeTableWord 8 0xD2 = some .jamD2 ∧ decodeTableWord 16 0x34D3 = some (.dcpIzy 0x34) ∧
    decodeTableWord 16 0x34D4 = some (.nopD4 0x34) ∧ decodeTableWord 16 0x34D5 = some (.cmpZpx 0x34) ∧
    decodeTableWord 16 0x34D6 = some (.decZpx 0x34) ∧ decodeTableWord 16 0x34D7 = some (.dcpZpx 0x34) ∧
    decodeTableWord 8 0xD8 = some .cld ∧ decodeTableWord 24 0x1234D9 = some (.cmpAby 0x1234) ∧
    decodeTableWord 8 0xDA = some .nopDA ∧ decodeTableWord 24 0x1234DB = some (.dcpAby 0x1234) ∧
    decodeTableWord 24 0x1234DC = some (.nopDC 0x1234) ∧ decodeTableWord 24 0x1234DD = some (.cmpAbx 0x1234) ∧
    decodeTableWord 24 0x1234DE = some (.decAbx 0x1234) ∧ decodeTableWord 24 0x1234DF = some (.dcpAbx 0x1234) := by
  decide

theorem test_decode_rowE :
    decodeTableWord 16 0x34E0 = some (.cpxImm 0x34) ∧ decodeTableWord 16 0x34E1 = some (.sbcIzx 0x34) ∧
    decodeTableWord 16 0x34E2 = some (.nopE2 0x34) ∧ decodeTableWord 16 0x34E3 = some (.iscIzx 0x34) ∧
    decodeTableWord 16 0x34E4 = some (.cpxZp 0x34) ∧ decodeTableWord 16 0x34E5 = some (.sbcZp 0x34) ∧
    decodeTableWord 16 0x34E6 = some (.incZp 0x34) ∧ decodeTableWord 16 0x34E7 = some (.iscZp 0x34) ∧
    decodeTableWord 8 0xE8 = some .inx ∧ decodeTableWord 16 0x34E9 = some (.sbcImm 0x34) ∧
    decodeTableWord 8 0xEA = some .nop ∧ decodeTableWord 16 0x34EB = some (.sbcEB 0x34) ∧
    decodeTableWord 24 0x1234EC = some (.cpxAbs 0x1234) ∧ decodeTableWord 24 0x1234ED = some (.sbcAbs 0x1234) ∧
    decodeTableWord 24 0x1234EE = some (.incAbs 0x1234) ∧ decodeTableWord 24 0x1234EF = some (.iscAbs 0x1234) := by
  decide

theorem test_decode_rowF :
    decodeTableWord 16 0xF0F0 = some (.beq (-16)) ∧ decodeTableWord 16 0x34F1 = some (.sbcIzy 0x34) ∧
    decodeTableWord 8 0xF2 = some .jamF2 ∧ decodeTableWord 16 0x34F3 = some (.iscIzy 0x34) ∧
    decodeTableWord 16 0x34F4 = some (.nopF4 0x34) ∧ decodeTableWord 16 0x34F5 = some (.sbcZpx 0x34) ∧
    decodeTableWord 16 0x34F6 = some (.incZpx 0x34) ∧ decodeTableWord 16 0x34F7 = some (.iscZpx 0x34) ∧
    decodeTableWord 8 0xF8 = some .sed ∧ decodeTableWord 24 0x1234F9 = some (.sbcAby 0x1234) ∧
    decodeTableWord 8 0xFA = some .nopFA ∧ decodeTableWord 24 0x1234FB = some (.iscAby 0x1234) ∧
    decodeTableWord 24 0x1234FC = some (.nopFC 0x1234) ∧ decodeTableWord 24 0x1234FD = some (.sbcAbx 0x1234) ∧
    decodeTableWord 24 0x1234FE = some (.incAbx 0x1234) ∧ decodeTableWord 24 0x1234FF = some (.iscAbx 0x1234) := by
  decide

/-- A byte string that ends too early is rejected by name (R174). -/
theorem test_decode_rejects : decode [] = .error .noOpcode ∧ decode [0xA9] = .error .operandBytesMissing ∧
    decode [0x8D, 0x00] = .error .operandBytesMissing := ⟨rfl, rfl, rfl⟩

/-! ## One step of an instruction (95_test_vectors.md) -/

/-- The registers of the tests: zero but for SP and PC. -/
def cpu0 : Cpu :=
  { a := 0, x := 0, y := 0, sp := 0xFD, pc := 0x8000, n := false, v := false, d := false, i := false, z := false, c := false,
    inNmi := false }

/-- A machine with these registers and bytes of work RAM, and nothing pending. -/
def machine (c : Cpu) (ram : Memory) : State :=
  { State.reset with cpu := c, wram := ram, emu := { totalCycles := 0, instrCount := 0, pendingCycles := 0 } }

/-- The machine of the tests with no byte of work RAM listed. -/
def idle : State := machine cpu0 []

/-- The outcome is a next state of which p holds. -/
def next? (o : Host.Outcome State Fault Refusal) (p : State → Bool) : Bool :=
  match o with
  | .next t => p t
  | .fault _ => false
  | .refused _ => false

/-- The outcome is a fault of which p holds. -/
def fault? (o : Host.Outcome State Fault Refusal) (p : Fault → Bool) : Bool :=
  match o with
  | .next _ => false
  | .fault f => p f
  | .refused _ => false

theorem exists_next {o : Host.Outcome State Fault Refusal} {p : State → Bool} (h : next? o p = true) : ∃ t, o = .next t := by
  cases o with
  | next t => exact ⟨t, rfl⟩
  | fault f => cases h
  | refused r => cases h

/-- One row of an arithmetic table: A, the value and C before; A, N, V, Z and C after. -/
def addRow (f : Byte → Instr) (r : Byte × Byte × Bool × Byte × Bool × Bool × Bool × Bool) : Bool :=
  let (a, v, ci, ao, n, vo, z, co) := r
  next? (exec (f v) (machine { cpu0 with a := a, c := ci } [])) fun t =>
    decide (t.cpu = { cpu0 with a := ao, n := n, v := vo, z := z, c := co, pc := 0x8002 } ∧ t.insCycles = 2)

/-- S4, S5 and the ADC table of §2.3. -/
theorem test_adc : [(0x50, 0x50, false, 0xA0, true, true, false, false), (0xFF, 0x01, false, 0x00, false, false, true, true),
    (0x01, 0x01, false, 0x02, false, false, false, false), (0x7F, 0x01, false, 0x80, true, true, false, false),
    (0x80, 0x80, false, 0x00, false, true, true, true), (0x80, 0xFF, false, 0x7F, false, true, false, true),
    (0xFF, 0xFF, true, 0xFF, true, false, false, true), (0x50, 0xD0, false, 0x20, false, false, false, true),
    (0x3F, 0x40, true, 0x80, true, true, false, false)].all (addRow .adcImm) = true := by decide

/-- The SBC table of §2.3, for 0xE9 and for 0xEB (V-UN21). -/
theorem test_sbc : [(0x00, 0x01, true, 0xFF, true, false, false, false), (0x80, 0x01, true, 0x7F, false, true, false, true),
    (0x50, 0xB0, true, 0xA0, true, true, false, false), (0x50, 0xF0, true, 0x60, false, false, false, false),
    (0x05, 0x03, false, 0x01, false, false, false, true), (0x7F, 0xFF, true, 0x80, true, true, false, false),
    (0xFF, 0xFF, false, 0xFF, true, false, false, false)].all (fun r => addRow .sbcImm r && addRow .sbcEB r) = true := by
  decide

/-- V-CF27: D changes nothing in an addition. -/
theorem test_adc_decimal : next? (exec (.adcImm 0x01) (machine { cpu0 with a := 0x09, d := true } []))
    (fun t => decide (t.cpu.a = 0x0A ∧ t.cpu.d = true)) = true := by decide

/-- One row of the compare table: the register and the value; N, Z and C after. -/
def compareRow (f : Byte → Instr) (r : Byte × Byte × Bool × Bool × Bool) : Bool :=
  let (x, v, n, z, c) := r
  next? (exec (f v) (machine { cpu0 with a := x, x := x, y := x, v := true } [])) fun t =>
    decide (t.cpu = { cpu0 with a := x, x := x, y := x, v := true, n := n, z := z, c := c, pc := 0x8002 })

/-- The compare table of §2.3. -/
theorem test_compare : [(0x10, 0x10, false, true, true), (0x10, 0x11, true, false, false), (0x11, 0x10, false, false, true),
    (0x00, 0xFF, false, false, false), (0xFF, 0x00, true, false, true), (0x80, 0x7F, false, false, true),
    (0x7F, 0x80, true, false, false)].all
      (fun r => compareRow .cmpImm r && compareRow .cpxImm r && compareRow .cpyImm r) = true := by decide

/-- V-AM1, V-AM3, V-AM4, V-AM6: indexed addresses, their wrap and the page-cross cycle. -/
theorem test_lda_indexed :
    next? (exec (.ldaZpx 0xFF) (machine { cpu0 with x := 2 } [(1, 0x77)])) (fun t => decide (t.cpu.a = 0x77 ∧ t.insCycles = 4))
      = true ∧
    next? (exec (.ldaAbx 0x12FF) (machine { cpu0 with x := 1 } [(0x300, 0x77)]))
      (fun t => decide (t.cpu.a = 0x77 ∧ t.insCycles = 5)) = true ∧
    next? (exec (.ldaAbx 0x1200) (machine { cpu0 with x := 1 } [(0x201, 0x77)]))
      (fun t => decide (t.cpu.a = 0x77 ∧ t.insCycles = 4)) = true ∧
    next? (exec (.ldaAbx 0xFFFF) (machine { cpu0 with x := 1 } [(0, 0x77)])) (fun t => decide (t.cpu.a = 0x77 ∧ t.insCycles = 5))
      = true := by decide

/-- V-AM7, V-AM8, V-AM9, V-AM10: the pointer's wrap in page 0, and its page-cross cycle. -/
theorem test_lda_indirect :
    next? (exec (.ldaIzx 0xFF) (machine cpu0 [(0, 0x12), (0xFF, 0x34), (0x234, 0x55)]))
      (fun t => decide (t.cpu.a = 0x55 ∧ t.insCycles = 6)) = true ∧
    next? (exec (.ldaIzx 0x10) (machine { cpu0 with x := 0xF5 } [(6, 0x03), (0x300, 0x55)]))
      (fun t => decide (t.cpu.a = 0x55 ∧ t.insCycles = 6)) = true ∧
    next? (exec (.ldaIzy 0x20) (machine { cpu0 with y := 1 } [(0x20, 0xFF), (0x21, 0x02), (0x300, 0x55)]))
      (fun t => decide (t.cpu.a = 0x55 ∧ t.insCycles = 6)) = true ∧
    next? (exec (.ldaIzy 0xFF) (machine { cpu0 with y := 0x10 } [(0, 0x04), (0x410, 0x55)]))
      (fun t => decide (t.cpu.a = 0x55 ∧ t.insCycles = 5)) = true := by decide

/-- V-AM5, V-LS5, V-LS6, V-UN14: stores, their cycles, the mirror of work RAM, the zero-page wrap, and A and X. -/
theorem test_stores :
    next? (exec (.staAbx 0x12FF) (machine { cpu0 with a := 0x5A, x := 1 } []))
      (fun t => decide (t.wram = [(0x300, 0x5A)] ∧ t.insCycles = 5)) = true ∧
    next? (exec (.staAbs 0x0800) (machine { cpu0 with a := 0x5A, z := true } []))
      (fun t => decide (t.wram = [(0, 0x5A)] ∧ t.cpu.z = true)) = true ∧
    next? (exec (.stxZpy 0x10) (machine { cpu0 with x := 1, y := 0xF5 } [])) (fun t => decide (t.wram = [(5, 1)])) = true ∧
    next? (exec (.styAbs 0x0300) (machine { cpu0 with y := 0x33 } [])) (fun t => decide (t.wram = [(0x300, 0x33)])) = true ∧
    next? (exec (.saxZp 0x10) (machine { cpu0 with a := 0xF0, x := 0x3C, n := true } []))
      (fun t => decide (t.wram = [(0x10, 0x30)] ∧ t.cpu.n = true)) = true := by decide

/-- V-LS1, V-LS3, V-LS8, V-LS11, V-LS12: loads and transfers; TXS sets no flag. -/
theorem test_loads_transfers :
    next? (exec (.ldaImm 0) (machine { cpu0 with n := true } [])) (fun t => decide (t.cpu.z = true ∧ t.cpu.n = false)) = true ∧
    next? (exec (.ldxZp 0x10) (machine cpu0 [(0x10, 0x7F)])) (fun t => decide (t.cpu.x = 0x7F ∧ t.insCycles = 3)) = true ∧
    next? (exec .tax (machine { cpu0 with x := 5 } [])) (fun t => decide (t.cpu.x = 0 ∧ t.cpu.z = true)) = true ∧
    next? (exec .tsx (machine { cpu0 with sp := 0x80 } [])) (fun t => decide (t.cpu.x = 0x80 ∧ t.cpu.n = true)) = true ∧
    next? (exec .txs (machine { cpu0 with n := true } [])) (fun t => decide (t.cpu.sp = 0 ∧ t.cpu.n = true ∧ t.cpu.z = false))
      = true := by decide

/-- V-LS13, V-LS14, V-LS15, V-LS17, V-LS19: the stack instructions and the wrap in page 1. -/
theorem test_stack :
    next? (exec .pha (machine { cpu0 with a := 0x42, sp := 0xFF } []))
      (fun t => decide (t.wram = [(0x1FF, 0x42)] ∧ t.cpu.sp = 0xFE ∧ t.insCycles = 3)) = true ∧
    next? (exec .pha (machine { cpu0 with a := 0x42, sp := 0 } [])) (fun t => decide (t.wram = [(0x100, 0x42)] ∧ t.cpu.sp = 0xFF))
      = true ∧
    next? (exec .php (machine { cpu0 with n := true, c := true } [])) (fun t => decide (t.wram = [(0x1FD, 0xB1)])) = true ∧
    next? (exec .pla (machine { cpu0 with sp := 0xFE, a := 1 } []))
      (fun t => decide (t.cpu.a = 0 ∧ t.cpu.z = true ∧ t.cpu.sp = 0xFF ∧ t.insCycles = 4)) = true ∧
    next? (exec .plp (machine { cpu0 with sp := 0xFE } [(0x1FF, 0xFF)])) (fun t => decide ((getEmuInfo t).status = 0xEF)) = true := by
  decide

/-- V-AL1, V-AL2, V-AL3, V-AL5: the logic instructions and BIT. -/
theorem test_logic :
    next? (exec (.andImm 0x0F) (machine { cpu0 with a := 0xF0 } [])) (fun t => decide (t.cpu.a = 0 ∧ t.cpu.z = true)) = true ∧
    next? (exec (.oraImm 0x01) (machine { cpu0 with a := 0x80 } [])) (fun t => decide (t.cpu.a = 0x81 ∧ t.cpu.n = true)) = true ∧
    next? (exec (.eorImm 0xFF) (machine { cpu0 with a := 0x0F } [])) (fun t => decide (t.cpu.a = 0xF0 ∧ t.cpu.n = true)) = true ∧
    next? (exec (.bitZp 0x10) (machine { cpu0 with a := 1 } [(0x10, 0xC0)]))
      (fun t => decide (t.cpu = { cpu0 with a := 1, z := true, n := true, v := true, pc := 0x8002 })) = true := by decide

/-- V-AL9, V-AL10, V-AL12, V-AL13, V-AL14, V-AL15: increments and decrements, at their wraps. -/
theorem test_counts :
    next? (exec (.incZp 0x10) (machine { cpu0 with c := true } [(0x10, 0xFF)]))
      (fun t => decide (t.wram = [] ∧ t.cpu.z = true ∧ t.cpu.c = true ∧ t.insCycles = 5)) = true ∧
    next? (exec (.decZp 0x10) (machine cpu0 [])) (fun t => decide (t.wram = [(0x10, 0xFF)] ∧ t.cpu.n = true)) = true ∧
    next? (exec .inx (machine { cpu0 with x := 0xFF } [])) (fun t => decide (t.cpu.x = 0 ∧ t.cpu.z = true)) = true ∧
    next? (exec .iny (machine { cpu0 with y := 0x7F } [])) (fun t => decide (t.cpu.y = 0x80 ∧ t.cpu.n = true)) = true ∧
    next? (exec .dex (machine cpu0 [])) (fun t => decide (t.cpu.x = 0xFF ∧ t.cpu.n = true)) = true ∧
    next? (exec .dey (machine { cpu0 with y := 1 } [])) (fun t => decide (t.cpu.y = 0 ∧ t.cpu.z = true)) = true := by decide

/-- V-AL16, V-AL17, V-AL18, V-AL20, V-AL22, V-AL24: shifts and rotates, on A and on memory. -/
theorem test_shifts :
    next? (exec .aslAcc (machine { cpu0 with a := 0x41 } [])) (fun t => decide (t.cpu.a = 0x82 ∧ t.cpu.c = false ∧ t.cpu.n = true))
      = true ∧
    next? (exec (.aslZp 0x10) (machine cpu0 [(0x10, 0x80)])) (fun t => decide (t.wram = [] ∧ t.cpu.c = true ∧ t.cpu.z = true))
      = true ∧
    next? (exec .lsrAcc (machine { cpu0 with a := 0x81 } [])) (fun t => decide (t.cpu.a = 0x40 ∧ t.cpu.c = true ∧ t.cpu.n = false))
      = true ∧
    next? (exec .rolAcc (machine { cpu0 with a := 0x40, c := true } []))
      (fun t => decide (t.cpu.a = 0x81 ∧ t.cpu.c = false ∧ t.cpu.n = true)) = true ∧
    next? (exec .rorAcc (machine { cpu0 with a := 0x02, c := true } []))
      (fun t => decide (t.cpu.a = 0x81 ∧ t.cpu.c = false ∧ t.cpu.n = true)) = true ∧
    next? (exec (.rorZp 0x10) (machine { cpu0 with c := true } []))
      (fun t => decide (t.wram = [(0x10, 0x80)] ∧ t.cpu.c = false ∧ t.cpu.n = true ∧ t.insCycles = 5)) = true := by decide

/-- V-CF1 to V-CF4, V-CF6, V-CF8: branches, their targets and cycles. -/
theorem test_branches :
    next? (exec (.bcc 0x10) idle) (fun t => decide (t.cpu.pc = 0x8012 ∧ t.insCycles = 3)) = true ∧
    next? (exec (.bcs 0x10) idle) (fun t => decide (t.cpu.pc = 0x8002 ∧ t.insCycles = 2)) = true ∧
    next? (exec (.beq 0x20) (machine { cpu0 with pc := 0x80F0, z := true } []))
      (fun t => decide (t.cpu.pc = 0x8112 ∧ t.insCycles = 4)) = true ∧
    next? (exec (.bne (-5)) (machine { cpu0 with pc := 0x8005 } [])) (fun t => decide (t.cpu.pc = 0x8002 ∧ t.insCycles = 3))
      = true ∧
    next? (exec (.bpl (-2)) idle) (fun t => decide (t.cpu.pc = 0x8000 ∧ t.insCycles = 3)) = true ∧
    next? (exec (.bvc 0x7F) (machine { cpu0 with pc := 0xFFF0 } [])) (fun t => decide (t.cpu.pc = 0x0071 ∧ t.insCycles = 4))
      = true := by decide

/-- V-CF13, V-CF14, V-CF16: the jump pointer's page wrap; the return address of JSR, at the stack's wrap too. -/
theorem test_jumps :
    next? (exec (.jmpInd 0x02FF) (machine cpu0 [(0x200, 0x90), (0x300, 0x40)]))
      (fun t => decide (t.cpu.pc = 0x9000 ∧ t.insCycles = 5)) = true ∧
    next? (exec (.jsr 0x9000) (machine { cpu0 with pc := 0x8010 } []))
      (fun t => decide (t.wram = [(0x1FC, 0x12), (0x1FD, 0x80)] ∧ t.cpu.sp = 0xFB ∧ t.cpu.pc = 0x9000 ∧ t.insCycles = 6))
      = true ∧
    next? (exec (.jsr 0x9000) (machine { cpu0 with pc := 0x8010, sp := 0 } []))
      (fun t => decide (t.wram = [(0x100, 0x80), (0x1FF, 0x12)] ∧ t.cpu.sp = 0xFE)) = true ∧
    next? (exec .rts (machine { cpu0 with sp := 0xFB } [(0x1FC, 0x12), (0x1FD, 0x80)]))
      (fun t => decide (t.cpu.pc = 0x8013 ∧ t.cpu.sp = 0xFD ∧ t.insCycles = 6)) = true := by decide

/-- V-CF17, V-CF19, V-CF20, V-CF21: RTI, and BRK suppressed and taken (S6). -/
theorem test_interrupt_instructions :
    next? (exec .rti (machine { cpu0 with sp := 0xFA, inNmi := true, n := true } [(0x1FB, 0x24), (0x1FD, 0x80)]))
      (fun t => decide (t.cpu = { cpu0 with i := true, pc := 0x8000 } ∧ t.insCycles = 6)) = true ∧
    next? (exec .brk (machine { cpu0 with i := true } []))
      (fun t => decide (t.cpu = { cpu0 with i := true, pc := 0x8001 } ∧ t.wram = [] ∧ t.insCycles = 7)) = true ∧
    next? (exec .brk (machine { cpu0 with inNmi := true } [])) (fun t => decide (t.cpu.pc = 0x8001 ∧ t.wram = [])) = true ∧
    next? (exec .brk { machine { cpu0 with n := true, c := true } [] with cart := { Cart.blank with prg := [(0x7FFF, 0x90)] } })
      (fun t => decide (t.wram = [(0x1FB, 0xB1), (0x1FC, 0x02), (0x1FD, 0x80)] ∧ t.cpu.sp = 0xFA ∧ t.cpu.i = true ∧
        t.cpu.pc = 0x9000 ∧ t.emu.pendingCycles = 0 ∧ t.insCycles = 7)) = true := by decide

/-- V-CF23 to V-CF29: the flag instructions and NOP. -/
theorem test_flags :
    next? (exec .clc (machine { cpu0 with c := true } [])) (fun t => decide (t.cpu = { cpu0 with pc := 0x8001 })) = true ∧
    next? (exec .sec idle) (fun t => decide (t.cpu = { cpu0 with c := true, pc := 0x8001 })) = true ∧
    next? (exec .cli (machine { cpu0 with i := true } [])) (fun t => decide (t.cpu = { cpu0 with pc := 0x8001 })) = true ∧
    next? (exec .sei idle) (fun t => decide (t.cpu = { cpu0 with i := true, pc := 0x8001 })) = true ∧
    next? (exec .cld (machine { cpu0 with d := true } [])) (fun t => decide (t.cpu = { cpu0 with pc := 0x8001 })) = true ∧
    next? (exec .sed idle) (fun t => decide (t.cpu = { cpu0 with d := true, pc := 0x8001 })) = true ∧
    next? (exec .clv (machine { cpu0 with v := true } [])) (fun t => decide (t.cpu = { cpu0 with pc := 0x8001 })) = true ∧
    next? (exec .nop idle) (fun t => decide (t.cpu = { cpu0 with pc := 0x8001 } ∧ t.insCycles = 2)) = true := by decide

/-- V-UN1, V-UN3, V-UN4, V-UN5, V-UN7, V-UN8, V-UN11: the unofficial read-modify-write instructions. -/
theorem test_unofficial_modify :
    next? (exec (.sloZp 0x10) (machine { cpu0 with a := 1 } [(0x10, 0x41)]))
      (fun t => decide (t.wram = [(0x10, 0x82)] ∧ t.cpu = { cpu0 with a := 0x83, n := true, pc := 0x8002 } ∧ t.insCycles = 5))
      = true ∧
    next? (exec (.sloAbx 0x12FF) (machine { cpu0 with x := 1 } [])) (fun t => decide (t.insCycles = 7)) = true ∧
    next? (exec (.rlaZp 0x10) (machine { cpu0 with a := 0xFF } [(0x10, 0x81)]))
      (fun t => decide (t.wram = [(0x10, 2)] ∧ t.cpu = { cpu0 with a := 2, c := true, pc := 0x8002 })) = true ∧
    next? (exec (.sreZp 0x10) (machine { cpu0 with a := 1 } [(0x10, 3)]))
      (fun t => decide (t.wram = [(0x10, 1)] ∧ t.cpu = { cpu0 with a := 0, c := true, z := true, pc := 0x8002 })) = true ∧
    next? (exec (.rraZp 0x10) (machine { cpu0 with a := 0x10, c := true } [(0x10, 2)]))
      (fun t => decide (t.wram = [(0x10, 0x81)] ∧ t.cpu = { cpu0 with a := 0x91, n := true, pc := 0x8002 })) = true ∧
    next? (exec (.dcpZp 0x10) (machine { cpu0 with a := 0x10 } [(0x10, 0x11)]))
      (fun t => decide (t.wram = [(0x10, 0x10)] ∧ t.cpu = { cpu0 with a := 0x10, c := true, z := true, pc := 0x8002 })) = true ∧
    next? (exec (.iscZp 0x10) (machine { cpu0 with a := 5, c := true } [(0x10, 0xFF)]))
      (fun t => decide (t.wram = [] ∧ t.cpu = { cpu0 with a := 5, c := true, pc := 0x8002 })) = true := by decide

/-- V-UN13, V-UN15 to V-UN20, V-UN24: LAX, the immediate combinations, and a NOP that reads. -/
theorem test_unofficial_read :
    next? (exec (.laxAby 0x02FF) (machine { cpu0 with y := 1 } [(0x300, 0x80)]))
      (fun t => decide (t.cpu.a = 0x80 ∧ t.cpu.x = 0x80 ∧ t.cpu.n = true ∧ t.insCycles = 5)) = true ∧
    next? (exec (.anc0B 0x80) (machine { cpu0 with a := 0xFF } []))
      (fun t => decide (t.cpu.a = 0x80 ∧ t.cpu.n = true ∧ t.cpu.c = true)) = true ∧
    next? (exec (.alrImm 0x01) (machine { cpu0 with a := 0x03 } []))
      (fun t => decide (t.cpu.a = 0 ∧ t.cpu.c = true ∧ t.cpu.z = true)) = true ∧
    next? (exec (.arrImm 0xC0) (machine { cpu0 with a := 0xC0 } []))
      (fun t => decide (t.cpu = { cpu0 with a := 0x60, c := true, pc := 0x8002 })) = true ∧
    next? (exec (.arrImm 0xFF) (machine { cpu0 with a := 0x60 } []))
      (fun t => decide (t.cpu = { cpu0 with a := 0x30, v := true, pc := 0x8002 })) = true ∧
    next? (exec (.axsImm 0x08) (machine { cpu0 with a := 0x0F, x := 0x07 } []))
      (fun t => decide (t.cpu.x = 0xFF ∧ t.cpu.c = false ∧ t.cpu.n = true)) = true ∧
    next? (exec (.nop1C 0x12FF) (machine { cpu0 with x := 1 } [])) (fun t => decide (t.insCycles = 5)) = true := by decide

/-- V-AL25, V-UN25, V-UN26: a read of port 0 stops with F2, at INC too; JAM stops with F1 and changes nothing. -/
theorem test_faults :
    fault? (exec (.incAbs 0x2000) idle) (fun f => decide (f = .f2PpuPortRead 0x8000 0x2000 idle)) = true ∧
    fault? (exec (.nop0C 0x2000) idle) (fun f => decide (f = .f2PpuPortRead 0x8000 0x2000 idle)) = true ∧
    fault? (exec .jam02 idle) (fun f => decide (f = .f1UnimplementedOpcode 0x8000 idle)) = true := by decide

/-- A step of the machine right after reset with one instruction placed where it is fetched: 2 cycles and the 7 pending ones,
27 dots (R670, R672); a store; a fault (V-UN26). -/
theorem test_step_after_reset :
    next? (step (State.reset.withFetchWord 16 0x80A9))
      (fun t => decide (t.cpu.a = 0x80 ∧ t.emu.totalCycles = 9 ∧ t.ppu.dots = 27 ∧ t.emu.instrCount = 1)) = true ∧
    next? (step (State.reset.withFetchWord 8 0x48)) (fun t => decide (t.cpu.sp = 0xFC)) = true ∧
    fault? (step (State.reset.withFetchWord 8 0x02)) (fun f => decide (f =
      .f1UnimplementedOpcode 0 (State.reset.withFetchWord 8 0x02))) = true := by decide

/-! ## Units (95_test_vectors.md) -/

/-- V-PPU3, V-PPU9, V-PPU11: PPUCTRL, PPUSCROLL and PPUADDR writes. -/
theorem test_ppu_scroll_writes :
    (Ppu.writeCtrl 0x03 State.reset.ppu).t = 0x0C00 ∧
    (Ppu.writeScroll 0x5E (Ppu.writeScroll 0x7D State.reset.ppu)).t = 0x616F ∧
    (Ppu.writeScroll 0x7D State.reset.ppu).x = 5 ∧
    (Ppu.writeAddr 0x00 (Ppu.writeAddr 0xFF State.reset.ppu)).v = 0x3F00 := by decide

/-- V-PPU-R1 to V-PPU-R7: the tile and attribute addresses and the scroll updates. -/
theorem test_ppu_addresses :
    ntAddr 0x0042 = 0x2042 ∧ atAddr 0x0042 = 0x23C0 ∧ atShift 0x0042 = 6 ∧ ntAddr 0x7FFF = 0x2FFF ∧ atAddr 0x7FFF = 0x2FFF ∧
    incCoarseX 0x0005 = 0x0006 ∧ incCoarseX 0x001F = 0x0400 ∧ incCoarseX 0x041F = 0x0000 ∧ incY 0x0000 = 0x1000 ∧
    incY 0x7000 = 0x0020 ∧ incY 0x73A0 = 0x0800 ∧ incY 0x73E0 = 0x0000 ∧ incY 0x7BC0 = 0x0BE0 ∧ copyX 0x7FFF 0 = 0x7BE0 ∧
    copyY 0x7FFF 0 = 0x041F := by decide

/-- V-PPU17, V-PPU18, V-PPU23 to V-PPU25: palette aliases and nametable mirroring. -/
theorem test_ppu_mirrors :
    palIndex 0x3F10 = 0 ∧ palIndex 0x3F34 = 4 ∧ ntIndex .vertical 0x2800 = ntIndex .vertical 0x2000 ∧
    ntIndex .horizontal 0x2400 = ntIndex .horizontal 0x2000 ∧ ntIndex .horizontal 0x2800 ≠ ntIndex .horizontal 0x2000 ∧
    ntIndex .vertical 0x3005 = ntIndex .vertical 0x2005 := by decide

/-- A machine for the sprite tests: tile 1 has one pixel, tile 2 is opaque; OAM and PPUMASK as given. -/
def spriteMachine (oam : Memory) (mask : Byte) (bgt : Cells Bool) : State :=
  { idle with
    cart := { Cart.blank with chr := [(0x10, 0x80)] ++ (List.range 8).map fun r => (0x20 + r, 0xFF) }
    ppu := { State.reset.ppu with oam := oam, mask := mask, bgt := bgt, pal := [(0x11, 0x16), (0x15, 0x2A)] } }

/-- The sprite-0 check completes with s0hit as given. -/
def s0After (r : Res Unit) (b : Bool) : Bool :=
  match r with
  | .ok _ t => t.ppu.s0hit == b
  | .fault _ => false

/-- S8: the sprite-0 hit and the conditions that stop it. -/
theorem test_sprite0 :
    let oam : Memory := [(0, 9), (1, 1), (3, 20)]
    s0After (sprite0Check 10 20 (spriteMachine oam 0x1E [(2580, false)])) true = true ∧
    s0After (sprite0Check 10 20 (spriteMachine oam 0x1E [])) false = true ∧
    s0After (sprite0Check 10 21 (spriteMachine oam 0x1E [(2581, false)])) false = true ∧
    s0After (sprite0Check 10 20 (spriteMachine oam 0x18 [(2580, false)])) false = true ∧
    s0After (sprite0Check 10 20 (spriteMachine oam 0x1C [(2580, false)])) false = true ∧
    s0After (sprite0Check 10 20 (spriteMachine oam 0x1A [(2580, false)])) false = true := by decide

/-- V-SP1 to V-SP4, at the pixel (0x20, 0x40): front, back and palette of a sprite. -/
theorem test_compositor :
    let colour := fun (oam : Memory) (bgt : Cells Bool) =>
      match compositeSprite 0 (spriteMachine oam 0x1E bgt) with
      | .ok _ t => t.ppu.colorAt 0x20 0x40
      | .fault _ => 0x3F
    colour [(0, 0x1F), (1, 2), (3, 0x40)] [(0x2040, false)] = 0x16 ∧
    colour [(0, 0x1F), (1, 2), (2, 0x20), (3, 0x40)] [(0x2040, false)] = 0 ∧
    colour [(0, 0x1F), (1, 2), (2, 0x20), (3, 0x40)] [] = 0x16 ∧
    colour [(0, 0x1F), (1, 2), (2, 0x01), (3, 0x40)] [] = 0x2A := by decide

/-- V-APU1, V-APU2, V-APU11 to V-APU13: the envelope, muting and the sweep. -/
theorem test_apu_units :
    let e : Envelope := { halt := false, const := false, vol := 2, start := true, div := 0, decay := 0 }
    e.clock.clock.clock.clock = { halt := false, const := false, vol := 2, start := false, div := 2, decay := 14 } ∧
    ({ e with start := false, halt := true } : Envelope).clock.decay = 15 ∧
    ({ Square.powerOn with period := 7 } : Square).muted true = true ∧
    ({ Square.powerOn with period := 0x600, swShift := 1 } : Square).muted false = true ∧
    (({ Square.powerOn with period := 0x100, swEn := true, swShift := 1, swNeg := true } : Square).clockSweep true).period = 0x07F := by
  decide

/-- S9: the DMC's fetch, its wrap and its four cycles. -/
theorem test_dmc_fetch :
    let s : State := { idle with apu := { Apu.powerOn with dmc := { Apu.powerOn.dmc with curAddr := 0xFFFF, remaining := 2 } } }
    (match dmcFetchCheck s with
     | .ok _ t => decide (t.apu.dmc.curAddr = 0x8000 ∧ t.apu.dmc.remaining = 1 ∧ t.apu.dmc.bufEmpty = false ∧
        t.emu.pendingCycles = 4)
     | .fault _ => false) = true := by decide

/-- The host's calls (49_system_step.md R683): a button pressed and released. -/
theorem test_buttons :
    (pushButton 1 7 idle).ctl.pad1.buttons = 0x80 ∧ (releaseButton 1 7 (pushButton 1 7 idle)).ctl.pad1.buttons = 0 := by decide

/-! ## Witnesses: states and operands that meet the hypotheses of each statement -/

/-- The invariant holds of the machine of the tests, whatever its registers. -/
theorem inv_idle : idle.Inv :=
  ⟨⟨by decide, by decide, by decide, ⟨rfl, rfl⟩, ⟨rfl, rfl⟩, ⟨rfl, rfl⟩, ⟨rfl, rfl⟩, ⟨rfl, rfl⟩⟩,
    ⟨by decide, by decide, by decide, by decide⟩, ⟨by decide, ⟨rfl, rfl⟩, ⟨rfl, rfl⟩⟩, ⟨rfl, rfl⟩, ⟨rfl, rfl⟩, by decide, by decide,
    rfl, rfl, by decide, by decide⟩

theorem inv_machine (c : Cpu) : (machine c []).Inv := inv_idle.setCpu c

/-- The machine with PC in work RAM and the bytes of an instruction there. -/
def loaded (bytes : List Byte) : State := storeProgram bytes (machine { cpu0 with pc := 0x0200 } [])

/-- The machine with PPUDATA's address v. -/
def withV (v : BitVec 15) : State := { idle with ppu := { State.reset.ppu with v := v } }

/-- The machine with no CHR bank, or with another cassette size. -/
def withBanks (prg chr : Nat) : State := { idle with cart := { Cart.blank with prgBanks := prg, chrBanks := chr } }

/-- The machine without PRG RAM. -/
def noPrgRam : State := { idle with params := { Params.atReset with prgRamPresent := false } }

theorem test_witness_StepRunsTheDecodedInstruction :
    (runDma (loaded [0xA9, 0x80]) = .ok 0 (loaded [0xA9, 0x80]) ∧
      readBytes (Instr.ldaImm 0x80).length (loaded [0xA9, 0x80]).cpu.pc (loaded [0xA9, 0x80]) =
        .ok [0xA9, 0x80] (loaded [0xA9, 0x80]) ∧
      decode [0xA9, 0x80] = .ok (.ldaImm 0x80, []) ∧ (Instr.ldaImm 0x80).faults = false) ∧
    (runDma (loaded [0x8B]) = .ok 0 (loaded [0x8B]) ∧
      busRead (loaded [0x8B]).cpu.pc (loaded [0x8B]) = .ok 0x8B (loaded [0x8B]) ∧
      decode [0x8B, 1, 2] = .ok (.xaaImm 1, [0x8B, 1, 2].drop (Instr.xaaImm 1).length) ∧ (Instr.xaaImm 1).faults = true) :=
  ⟨⟨by decide, by decide, rfl, rfl⟩, by decide, by decide, rfl, rfl⟩

theorem test_witness_DecodeOfEncode : (Instr.ldaAbs 0xFFFF).WellFormed ∧ (Instr.bvs 127).WellFormed ∧ (Instr.bvs (-128)).WellFormed := by
  decide

theorem test_witness_EncodeOfDecode :
    decode [0x70, 0x80, 9] = .ok (.bvs (-128), [9]) ∧ decode [] = .error .noOpcode ∧ decode [0x6C, 9] = .error .operandBytesMissing :=
  ⟨rfl, rfl, rfl⟩

theorem test_witness_OpcodeMapColumns : (Instr.laxIzy 0).faults = false ∧ (Instr.laxIzy 0).row.pageCross = true ∧
    (Instr.staIzy 0).faults = false ∧ (Instr.staIzy 0).row.pageCross = false ∧ Instr.jamF2.faults = true := by decide

/-- Rows of each class at the ends of the table's cycle column (R172). -/
theorem test_witness_OpcodeMapColumns_cycles :
    ((Instr.ldxZpy 0xFF).mnemonic, (Instr.ldxZpy 0xFF).row.mode, (Instr.ldxZpy 0xFF).row.baseCycles) = (.ldx, .zpy, 4) ∧
    ((Instr.staIzy 0xFF).mnemonic, (Instr.staIzy 0xFF).row.mode, (Instr.staIzy 0xFF).row.baseCycles) = (.sta, .izy, 6) ∧
    ((Instr.iscIzx 0xFF).mnemonic, (Instr.iscIzx 0xFF).row.mode, (Instr.iscIzx 0xFF).row.baseCycles) = (.isc, .izx, 8) ∧
    ((Instr.beq (-128)).mnemonic, (Instr.beq (-128)).row.mode, (Instr.beq (-128)).row.baseCycles) = (.beq, .rel, 2) ∧
    (Instr.sed.mnemonic, Instr.sed.row.mode, Instr.sed.row.baseCycles) = (.sed, .imp, 2) := by decide

theorem test_witness_FetchValueForms : fetchAddress (.abs 0x0010) idle = .ok (0x0010, false) idle ∧
    busRead 0x0010 idle = .ok 0 idle ∧ busRead 0x2000 idle = .fault (.f2PpuPortRead 0x8000 0x2000 idle) := by decide

theorem test_witness_BusReadByRange :
    busRead 0x0000 idle = .ok 0 idle ∧ busRead 0x1FFF idle = .ok 0 idle ∧
    busRead 0x2000 idle = .fault (.f2PpuPortRead 0x8000 0x2000 idle) ∧
    busRead 0x3FFE idle = .fault (.f2PpuPortRead 0x8000 0x3FFE idle) ∧
    (∃ b t, busRead 0x4000 idle = .ok b t) ∧ (∃ b t, busRead 0x401F idle = .ok b t) ∧
    busRead 0x4020 idle = .fault (.f5Unmapped 0x8000 0x4020 idle) ∧ busRead 0x5FFF idle = .fault (.f5Unmapped 0x8000 0x5FFF idle) ∧
    busRead 0x6000 idle = .ok 0 idle ∧ busRead 0x7FFF noPrgRam = .fault (.f5Unmapped 0x8000 0x7FFF noPrgRam) ∧
    busRead 0x8000 idle = .ok 0 idle ∧ busRead 0xFFFF idle = .ok 0 idle :=
  ⟨by decide, by decide, by decide, by decide, (busRead_completes _ _).2 (by decide), (busRead_completes _ _).2 (by decide), by decide, by decide,
    by decide, by decide, by decide, by decide⟩

theorem test_witness_BusWriteByRange :
    busWrite 0x1FFF 1 idle = .ok () { idle with wram := [(0x7FF, 1)] } ∧
    busWrite 0x4014 2 idle = .ok () { idle with bus := { dmaPending := true, dmaPage := 2 } } ∧
    busWrite 0x4018 1 idle = .ok () idle ∧ busWrite 0x401F 1 idle = .ok () idle ∧
    busWrite 0x4020 1 idle = .fault (.f5Unmapped 0x8000 0x4020 idle) ∧
    busWrite 0x7FFF 1 idle = .ok () { idle with prgRam := [(0x1FFF, 1)] } ∧
    busWrite 0x6000 1 noPrgRam = .fault (.f5Unmapped 0x8000 0x6000 noPrgRam) ∧
    busWrite 0xBFFF 1 (withBanks 1 1) =
      .ok () { withBanks 1 1 with cart := { Cart.blank with prg := [(0x3FFF, 1)], prgBanks := 1 } } ∧
    busWrite 0xC000 1 (withBanks 1 1) = .fault (.f6PrgBounds 0x8000 0xC000 (withBanks 1 1)) := by decide

theorem test_witness_StorageReadsBackItsLastWrite : idle.Inv ∧
    (cellOf idle 0x0000 = some (.wram 0) ∧ cellOf idle 0x1800 = some (.wram 0) ∧ ∃ t, busWrite 0x1800 1 idle = .ok () t) ∧
    (cellOf idle 0x7FFF = some (.prgRam 0x1FFF) ∧ ∃ t, busWrite 0x7FFF 1 idle = .ok () t) ∧
    (cellOf idle 0xFFFF = some (.prg 0x7FFF) ∧ ∃ t, busWrite 0xFFFF 1 idle = .ok () t) ∧ cellOf idle 0x2007 = none :=
  ⟨inv_idle, ⟨by decide, by decide, (busWrite_completes _ _ _).2 (by decide)⟩, ⟨by decide, (busWrite_completes _ _ _).2 (by decide)⟩,
    ⟨by decide, (busWrite_completes _ _ _).2 (by decide)⟩, by decide⟩

/-- Operands that can and cannot be read, at the edges of each range. -/
theorem test_witness_operandReadable :
    operandReadable .acc idle = true ∧ operandReadable (.imm 0) idle = true ∧ operandReadable (.mem (.zp 0xFF)) idle = true ∧
    operandReadable (.mem (.zpx 0xFF)) idle = true ∧ operandReadable (.mem (.zpy 0xFF)) idle = true ∧
    operandReadable (.mem (.izx 0xFF)) idle = true ∧ operandReadable (.mem (.izy 0xFF)) idle = true ∧
    operandReadable (.mem (.abs 0x1FFF)) idle = true ∧ operandReadable (.mem (.abs 0x2000)) idle = false ∧
    operandReadable (.mem (.abs 0x2002)) idle = true ∧ operandReadable (.mem (.abs 0x3FFF)) idle = true ∧
    operandReadable (.mem (.abs 0x3FFF)) (withBanks 2 0) = false ∧ operandReadable (.mem (.abs 0x4000)) idle = true ∧
    operandReadable (.mem (.abs 0x4020)) idle = false ∧ operandReadable (.mem (.abx 0x5FFF)) idle = false ∧
    operandReadable (.mem (.aby 0x6000)) idle = true ∧ operandReadable (.mem (.abs 0x7FFF)) noPrgRam = false ∧
    operandReadable (.mem (.abs 0xFFFF)) idle = true := by decide

/-- O11 to O16: an instruction of each mnemonic, with an operand that can be read. -/
theorem test_witness_reading :
    ([.ldaAbs 0, .ldxAbs 0, .ldyAbs 0, .laxAbs 0, .andAbs 0, .oraAbs 0, .eorAbs 0, .bitAbs 0, .adcAbs 0, .sbcAbs 0, .cmpAbs 0,
      .cpxAbs 0, .cpyAbs 0] : List Instr).map Instr.mnemonic =
        [.lda, .ldx, .ldy, .lax, .and, .ora, .eor, .bit, .adc, .sbc, .cmp, .cpx, .cpy] ∧
    (Instr.ldaAbs 0).operand = .value (.mem (.abs 0)) ∧ operandReadable (.mem (.abs 0)) idle = true ∧
    ([.anc0B 0, .anc2B 0, .alrImm 0, .arrImm 0, .axsImm 0, .sbcEB 0] : List Instr).map Instr.mnemonic =
      [.anc, .anc, .alr, .arr, .axs, .sbc] ∧
    (Instr.anc0B 0).operand = .value (.imm 0) ∧ operandReadable (.imm 0) idle = true := by decide

/-- O17: an instruction of each mnemonic, and addresses where a write completes and where it does not. -/
theorem test_witness_StoreRules :
    ([.staAbs 0, .stxAbs 0, .styAbs 0, .saxAbs 0] : List Instr).map Instr.mnemonic = [.sta, .stx, .sty, .sax] ∧
    writable idle 0x1FFF 0 = true ∧ writable idle 0x2000 0x1F = true ∧ writable idle 0x3FF8 0x20 = false ∧
    writable idle 0x2007 0 = true ∧ writable (withBanks 2 0) 0x2007 0 = false ∧ writable idle 0x401F 0 = true ∧
    writable idle 0x4020 0 = false ∧ writable idle 0x5FFF 0 = false ∧ writable idle 0x6000 0 = true ∧
    writable noPrgRam 0x7FFF 0 = false ∧ writable idle 0xFFFF 0 = true ∧ writable (withBanks 1 1) 0xC000 0 = false := by decide

/-- O18, O19, O28: an instruction of each mnemonic. -/
theorem test_witness_implied :
    ([.tax, .tay, .txa, .tya, .tsx, .txs, .inx, .iny, .dex, .dey, .pha, .php, .pla, .plp, .clc, .sec, .cli, .sei, .cld, .sed,
      .clv] : List Instr).map Instr.mnemonic =
        [.tax, .tay, .txa, .tya, .tsx, .txs, .inx, .iny, .dex, .dey, .pha, .php, .pla, .plp, .clc, .sec, .cli, .sei, .cld, .sed,
          .clv] := by decide

/-- O20 to O22: an instruction of each mnemonic, a read and a write that complete, a read that does not, and a write that does
not after a read that does. -/
theorem test_witness_modifying :
    ([.incAbs 0, .decAbs 0, .aslAcc, .lsrAcc, .rolAcc, .rorAcc, .sloAbs 0, .rlaAbs 0, .sreAbs 0, .rraAbs 0, .dcpAbs 0, .iscAbs 0]
      : List Instr).map Instr.mnemonic = [.inc, .dec, .asl, .lsr, .rol, .ror, .slo, .rla, .sre, .rra, .dcp, .isc] ∧
    (Instr.incAbs 0x10).operand = .value (.mem (.abs 0x10)) ∧ fetchAddress (.abs 0x10) idle = .ok (0x10, false) idle ∧
    readable idle 0x10 = true ∧ busRead 0x10 idle = .ok 0 idle ∧ writable idle 0x10 1 = true ∧ readable idle 0x2000 = false ∧
    readable (withBanks 1 1) 0xC000 = true ∧ writable (withBanks 1 1) 0xC000 1 = false := by decide

theorem test_witness_BranchRules :
    ([.bcc 127, .bcs (-128), .beq 0, .bne 0, .bmi 0, .bpl 0, .bvc 0, .bvs 0] : List Instr).map Instr.mnemonic =
      [.bcc, .bcs, .beq, .bne, .bmi, .bpl, .bvc, .bvs] ∧
    (Instr.bcc 127).WellFormed ∧ (Instr.bcs (-128)).WellFormed ∧ idle.cpu.c = false ∧ idle.cpu.z = false ∧ idle.cpu.n = false ∧
    idle.cpu.v = false ∧ (machine { cpu0 with c := true, z := true, n := true, v := true } []).cpu.c = true := by decide

theorem test_witness_JumpRules : pointerReadable 0x02FF idle = true ∧ pointerReadable 0x5FFF idle = false ∧
    pointerReadable 0x2002 idle = false := by
  refine ⟨by decide, by decide, rfl⟩

/-- The machine about to fetch `JSR $9000` (R343). -/
theorem test_witness_SubroutineRules : fetch (loaded [0x20, 0x00, 0x90]) = .ok (.jsr 0x9000) (loaded [0x20, 0x00, 0x90]) ∧
    ((Instr.jsr 0x9000).row.opcode, (Instr.jsr 0x9000).row.mode) = (0x20, .abs) ∧
    (Instr.rts.row.opcode, Instr.rts.row.mode) = (0x60, .imp) := by decide

theorem test_witness_BreakRule : (idle.cpu.i = false ∧ idle.cpu.inNmi = false) ∧ (machine { cpu0 with i := true } []).cpu.i = true ∧
    (machine { cpu0 with inNmi := true } []).cpu.inNmi = true := by decide

theorem test_witness_NopRules : Instr.nop.mnemonic = .nop ∧ Instr.nop.operand = .imp ∧ (Instr.nop0C 0x10).mnemonic = .nop ∧
    (Instr.nop0C 0x10).operand = .value (.mem (.abs 0x10)) ∧ operandReadable (.mem (.abs 0x10)) idle = true ∧
    operandReadable (.mem (.abs 0x2000)) idle = false := by decide

theorem test_witness_FaultingOpcodes :
    ([.jam02, .xaaImm 0, .ahxIzy 0, .ahxAby 0, .tasAby 0, .shyAbx 0, .shxAby 0, .lxaImm 0, .lasAby 0] : List Instr).map
      Instr.mnemonic = [.jam, .xaa, .ahx, .ahx, .tas, .shy, .shx, .lxa, .las] := by decide

theorem test_witness_RegisterWriters :
    (∃ t, exec (.ldaImm 1) idle = .next t ∧ t.cpu.a ≠ idle.cpu.a) ∧ (∃ t, exec (.ldxImm 1) idle = .next t ∧ t.cpu.x ≠ idle.cpu.x) ∧
    (∃ t, exec (.ldyImm 1) idle = .next t ∧ t.cpu.y ≠ idle.cpu.y) ∧ (∃ t, exec .pha idle = .next t ∧ t.cpu.sp ≠ idle.cpu.sp) ∧
    (∃ t, exec .sed idle = .next t ∧ t.cpu.d ≠ idle.cpu.d) ∧ (∃ t, exec .sei idle = .next t ∧ t.cpu.i ≠ idle.cpu.i) ∧
    (∃ t, exec .sec idle = .next t ∧ t.cpu.c ≠ idle.cpu.c) ∧ (∃ t, exec .tax idle = .next t ∧ t.cpu.z ≠ idle.cpu.z) ∧
    (∃ t, exec (.adcImm 0x7F) (machine { cpu0 with c := true } []) = .next t ∧ t.cpu.v ≠ false) ∧
    (∃ t, exec .rti (machine { cpu0 with inNmi := true } []) = .next t ∧ t.cpu.inNmi ≠ true) :=
  ⟨⟨_, rfl, by decide⟩, ⟨_, rfl, by decide⟩, ⟨_, rfl, by decide⟩, ⟨_, rfl, by decide⟩, ⟨_, rfl, by decide⟩, ⟨_, rfl, by decide⟩,
    ⟨_, rfl, by decide⟩, ⟨_, rfl, by decide⟩, ⟨_, rfl, by decide⟩, ⟨_, rfl, by decide⟩⟩

theorem test_witness_FrameOfInstructionsThatStoreNothing :
    (storesNothing (.ldaAbs 0x2007) = true ∧ ∃ t, exec (.ldaAbs 0x2007) idle = .next t) ∧
    (storesNothing .aslAcc = true ∧ ∃ t, exec .aslAcc idle = .next t) ∧ (storesNothing .rti = true ∧ ∃ t, exec .rti idle = .next t) ∧
    (storesNothing (.bcc 0) = true ∧ ∃ t, exec (.bcc 0) idle = .next t) ∧
    (storesNothing (.jmpInd 0) = true ∧ ∃ t, exec (.jmpInd 0) idle = .next t) :=
  ⟨⟨rfl, _, rfl⟩, ⟨rfl, _, rfl⟩, ⟨rfl, _, rfl⟩, ⟨rfl, _, rfl⟩, ⟨rfl, _, rfl⟩⟩

theorem test_witness_FrameOfStores :
    (storesValue (.staAbs 0x10) = true ∧ (Instr.staAbs 0x10).operand = .value (.mem (.abs 0x10)) ∧
      fetchAddress (.abs 0x10) idle = .ok (0x10, false) idle ∧ ∃ t, exec (.staAbs 0x10) idle = .next t) ∧
    (storesValue (.saxAbs 0x2007) = true ∧ fetchAddress (.abs 0x2007) idle = .ok (0x2007, false) idle ∧
      ∃ t, exec (.saxAbs 0x2007) idle = .next t) ∧
    (storesValue (.stxAbs 0x2004) = true ∧ ∃ t, exec (.stxAbs 0x2004) idle = .next t) ∧
    (storesValue (.styAbs 0x4017) = true ∧ ∃ t, exec (.styAbs 0x4017) idle = .next t) :=
  ⟨⟨rfl, rfl, rfl, _, rfl⟩, ⟨rfl, rfl, _, rfl⟩, ⟨rfl, _, rfl⟩, ⟨rfl, _, rfl⟩⟩

theorem test_witness_FrameOfModifications :
    (modifiesMemory (.incAbs 0x10) = true ∧ (Instr.incAbs 0x10).operand = .value (.mem (.abs 0x10)) ∧
      fetchAddress (.abs 0x10) idle = .ok (0x10, false) idle ∧ busRead 0x10 idle = .ok 0 idle ∧
      ∃ t, exec (.incAbs 0x10) idle = .next t) ∧
    (modifiesMemory (.aslAbs 0x2007) = true ∧ (∃ v t, busRead 0x2007 idle = .ok v t) ∧ ∃ t, exec (.aslAbs 0x2007) idle = .next t) ∧
    (modifiesMemory (.iscAbs 0x2004) = true ∧ ∃ t, exec (.iscAbs 0x2004) idle = .next t) :=
  ⟨⟨rfl, rfl, rfl, by decide, _, rfl⟩, ⟨rfl, ⟨_, _, rfl⟩, _, rfl⟩, ⟨rfl, _, rfl⟩⟩

theorem test_witness_FrameOfPushes :
    (Instr.pha.mnemonic = .pha ∧ ∃ t, exec .pha idle = .next t) ∧ (Instr.php.mnemonic = .php ∧ ∃ t, exec .php idle = .next t) ∧
    ((Instr.jsr 0).mnemonic = .jsr ∧ ∃ t, exec (.jsr 0) idle = .next t) ∧ (Instr.brk.mnemonic = .brk ∧ ∃ t, exec .brk idle = .next t) ∧
    pushCount .brk idle = 3 ∧ pushCount .brk (machine { cpu0 with i := true } []) = 0 :=
  ⟨⟨rfl, _, rfl⟩, ⟨rfl, _, rfl⟩, ⟨rfl, _, rfl⟩, ⟨rfl, _, rfl⟩, rfl, rfl⟩

theorem test_witness_DecimalFlagHasNoEffect :
    (∃ t, exec (.adcImm 1) idle = .next t) ∧ (∃ t, exec (.sbcAbs 0x2002) idle = .next t) ∧ (∃ t, exec (.rraZp 0) idle = .next t) ∧
    (∃ t, exec (.iscZp 0) idle = .next t) ∧ ∃ t, exec (.arrImm 1) idle = .next t :=
  ⟨⟨_, rfl⟩, ⟨_, rfl⟩, ⟨_, rfl⟩, ⟨_, rfl⟩, _, rfl⟩

theorem test_witness_PpuPortWrites :
    (0x2000 ≤ (0x2000 : Word).toNat ∧ (0x3FF8 : Word).toNat < 0x4000 ∧ (0x3FF8 : Word).toNat % 8 = 0) ∧
    (0xDF : Byte).getLsbD 5 = false ∧ (0x20 : Byte).getLsbD 5 = true ∧ (0x2001 : Word).toNat % 8 = 1 ∧ (0x200A : Word).toNat % 8 = 2 ∧
    (0x2003 : Word).toNat % 8 = 3 ∧ (0x3FFC : Word).toNat % 8 = 4 ∧ (0x3FFD : Word).toNat % 8 = 5 ∧ (0x2006 : Word).toNat % 8 = 6 ∧
    idle.ppu.w = false ∧ ({ idle with ppu := { State.reset.ppu with w := true } } : State).ppu.w = true := by decide

theorem test_witness_PpuDataWrites :
    (0x3FFF : Word).toNat % 8 = 7 ∧ (0x3FFF : Word).toNat < 0x4000 ∧ (withV 0x5FFF).ppu.v.toNat % 0x4000 = 0x1FFF ∧
    (withV 0x1FFF).cart.chrSize = 0x2000 ∧ (withBanks 2 0).cart.chrSize ≤ (withBanks 2 0).ppu.v.toNat % 0x4000 ∧
    (withV 0x2000).ppu.v.toNat % 0x4000 = 0x2000 ∧ (withV 0x3EFF).ppu.v.toNat % 0x4000 = 0x3EFF ∧
    (withV 0x3F00).ppu.v.toNat % 0x4000 = 0x3F00 ∧ (withV 0x7FFF).ppu.v.toNat % 0x4000 = 0x3FFF := by decide

theorem test_witness_PpuPortReads :
    (0x2002 : Word).toNat % 8 = 2 ∧ (0x3FFC : Word).toNat % 8 = 4 ∧ (0x2007 : Word).toNat % 8 = 7 ∧
    ppuPeek (withV 0x1FFF) 0x1FFF = some 0 ∧ ppuPeek (withV 0x3EFF) 0x3EFF = some 0 ∧ ppuPeek (withBanks 2 0) 0 = none ∧
    (withV 0x3F00).ppu.v.toNat % 0x4000 = 0x3F00 := by decide

theorem test_witness_PpuSpaceMirroring :
    (0x3000 ≤ 0x3EFF ∧ 0x3EFF < 0x3F00 ∧ ntIndex .vertical 0x3EFF = ntIndex .vertical 0x2EFF) ∧
    ntIndex .horizontal (0x2000 + 0x3FF) = 0x3FF ∧ ntIndex .horizontal (0x2800 + 0x3FF) = 0xBFF ∧
    ntIndex .vertical (0x2400 + 0) = 0x400 ∧
    (ntIndex .horizontal 0x2000 = ntIndex .horizontal 0x3400 ∧ ntIndex .vertical 0x2EFF = ntIndex .vertical 0x3EFF) ∧
    (ntIndex .horizontal 0x2000 ≠ ntIndex .horizontal 0x3EFF ∧ ntIndex .vertical 0x2000 ≠ ntIndex .vertical 0x2001) := by decide

/-- The machine with these mask bits, and with rendering on a tile whose pattern is opaque. -/
def masked (mask : Byte) : State := { idle with ppu := { State.reset.ppu with mask := mask } }

theorem inv_masked (mask : Byte) : (masked mask).Inv :=
  ⟨⟨by change 0 ≤ 261; decide, by change 0 ≤ 340; decide, by change (0 : Byte).getLsbD 5 = false; decide, ⟨rfl, rfl⟩, ⟨rfl, rfl⟩, ⟨rfl, rfl⟩, ⟨rfl, rfl⟩, ⟨rfl, rfl⟩⟩,
    inv_idle.apu, inv_idle.cart, inv_idle.wram, inv_idle.prgRam, inv_idle.index0, inv_idle.index1, rfl, rfl, inv_idle.sampleLow,
    inv_idle.sampleHigh⟩

theorem test_witness_BackgroundPixel : (masked 0x08).Inv ∧ (239 < 240 ∧ 255 < 256) ∧ (masked 0x08).ppu.rendering = true ∧
    ppuPeek (masked 0x08) (0x2000 + (masked 0x08).ppu.v.toNat % 0x1000) = some 0 ∧
    ppuPeek (masked 0x08) (0x23C0 ||| ((masked 0x08).ppu.v.toNat &&& 0x0C00) ||| (((masked 0x08).ppu.v.toNat >>> 4) &&& 0x38) |||
      (((masked 0x08).ppu.v.toNat >>> 2) &&& 0x07)) = some 0 ∧
    ppuPeek (masked 0x08) 0 = some 0 ∧ ppuPeek (masked 0x08) 8 = some 0 :=
  ⟨inv_masked _, by decide, by decide, by decide, by decide, by decide, by decide⟩

theorem test_witness_BackdropPixel : (masked 0x06).Inv ∧ (239 < 240 ∧ 255 < 256) ∧ (masked 0x06).ppu.rendering = false :=
  ⟨inv_masked _, by decide, by decide⟩

theorem test_witness_SpriteZeroHit : let s := spriteMachine [(0, 9), (1, 1), (3, 20)] 0x1E []
    s.ppu.s0Enabled = true ∧ (s.ppu.sprite 0).covers 10 20 = true ∧ (s.ppu.sprite 0).covers 17 27 = true ∧
    (s.ppu.sprite 0).covers 18 20 = false ∧ (s.ppu.sprite 0).covers 9 20 = false ∧ (s.ppu.sprite 0).covers 10 28 = false ∧
    ppuPeek s 16 = some 0x80 ∧ ppuPeek s 24 = some 0 := by decide

/-- Sixty-four back sprites at the top left. -/
def backSprites : Memory := (List.range 64).map fun i => (4 * i + 2, 0x20)

theorem test_witness_CompositorFrame :
    (composite (masked 0x08) = .ok () (masked 0x08) ∧ (masked 0x08).ppu.mask.getLsbD 4 = false) ∧
    (∀ i, i < 64 → ((masked 0x08).ppu.sprite i).covers 9 0 = false) ∧
    (let p := (spriteMachine backSprites 0x1E [(256, false)]).ppu
     ∀ i, i < 64 → (p.sprite i).covers 1 0 = true ∧ (p.sprite i).attr.getLsbD 5 = true ∧ p.transparent 1 0 = false) := by decide

/-- A machine whose sprite 0 covers lines 10 to 17 and columns 20 to 27, every other sprite below the picture. -/
def oneSprite : State :=
  spriteMachine ([(0, 9), (1, 1), (3, 20)] ++ (List.range 63).map fun i => (4 * (i + 1), 0xFF)) 0x1E []

/-- The drawing clause: hypotheses met, and by R496 the pixel shows palette entry 0x3F11. -/
theorem test_witness_CompositorFrame_draws :
    oneSprite.Inv ∧ oneSprite.ppu.mask.getLsbD 4 = true ∧
    (spritesByPriority oneSprite.params.spriteOrder).findSome? (spriteColor oneSprite 10 20) = some 0x16 ∧
    (spritesByPriority oneSprite.params.spriteOrder).findSome? (spriteColor oneSprite 239 255) = none ∧
    (match composite oneSprite with
      | .ok _ t => t.ppu.colorAt 10 20 == 0x16 && t.ppu.colorAt 239 255 == 0
      | .fault _ => false) = true :=
  ⟨⟨⟨by change 0 ≤ 261; decide, by change 0 ≤ 340; decide, by decide, ⟨rfl, rfl⟩, ⟨rfl, rfl⟩, ⟨by decide, by decide⟩, ⟨rfl, rfl⟩,
    ⟨by decide, by decide⟩⟩, inv_idle.apu, ⟨by decide, ⟨rfl, rfl⟩, ⟨by decide, by decide⟩⟩, inv_idle.wram, inv_idle.prgRam,
    inv_idle.index0, inv_idle.index1, rfl, rfl, inv_idle.sampleLow, inv_idle.sampleHigh⟩, by decide, by decide, by decide, by decide +kernel⟩

theorem test_witness_VblankAndNmi :
    composite idle = .ok () idle ∧ (∃ t, dotAt 241 0 idle = .ok () t) ∧ (∃ t, dotAt 0 0 idle = .ok () t) ∧
    (∃ t, dotAt 261 0 idle = .ok () t) := by
  refine ⟨by decide, dotAt_off_completes _ _ rfl, dotAt_off_completes _ _ rfl, dotAt_off_completes _ _ rfl⟩

theorem test_witness_FrameOfDots : idle.ppu.lines ≤ 261 ∧ idle.ppu.dots ≤ 340 ∧ 0 < idle.cart.chrBanks ∧
    (∃ frame t, ppuRun 0 false idle = .ok frame t) ∧ (∃ frame t, ppuRun 89341 false idle = .ok frame t) ∧
    (∃ frame t, ppuRun 89342 false idle = .ok frame t) :=
  ⟨by decide, by decide, by decide, ppuRun_off_completes _ _ rfl, ppuRun_off_completes _ _ rfl, ppuRun_off_completes _ _ rfl⟩

/-- The machine with an OAM DMA of a page pending, and OAMADDR as given. -/
def withDma (page oamaddr : Byte) : State :=
  { idle with bus := { dmaPending := true, dmaPage := page }, ppu := { State.reset.ppu with oamaddr := oamaddr } }

theorem stored_page2 (k : Nat) (_ : k < 256) : storedByte (withDma 0x02 0) (0x02#8 ++ BitVec.ofNat 8 k) = some 0 := by
  have h : (0x02#8 ++ BitVec.ofNat 8 k : Word).toNat < 0x2000 := by
    rw [BitVec.toNat_append, ← Nat.shiftLeft_add_eq_or_of_lt (BitVec.isLt _), Nat.shiftLeft_eq]
    have := (BitVec.ofNat 8 k).isLt
    simp only [BitVec.toNat_ofNat]
    omega
  unfold storedByte cellOf
  rw [if_pos h]
  rfl

theorem test_witness_OamDma :
    (withDma 0x02 0).bus.dmaPending = true ∧ (withDma 0x02 0).ppu.oamaddr = 0 ∧
    (∀ k, k < 256 → storedByte (withDma 0x02 0) ((withDma 0x02 0).bus.dmaPage ++ BitVec.ofNat 8 k) = some 0) ∧
    (withDma 0x02 0).Inv ∧ (withDma 0x02 1).ppu.oamaddr ≠ 0 ∧ idle.bus.dmaPending = false :=
  ⟨rfl, rfl, stored_page2, ⟨⟨by decide, by decide, by decide, ⟨rfl, rfl⟩, ⟨rfl, rfl⟩, ⟨rfl, rfl⟩, ⟨rfl, rfl⟩, ⟨rfl, rfl⟩⟩, inv_idle.apu,
    inv_idle.cart, inv_idle.wram, inv_idle.prgRam, inv_idle.index0, inv_idle.index1, rfl, rfl, inv_idle.sampleLow,
    inv_idle.sampleHigh⟩, by decide, rfl⟩

theorem test_witness_ControllerPorts :
    ({ Ctl.powerOn with strobe := true } : Ctl).strobe = true ∧ Ctl.powerOn.strobe = false ∧ Ctl.powerOn.pad0.index < 8 ∧
    ({ buttons := 0, shift := 0, index := 7 } : Pad).index < 8 ∧ 8 ≤ ({ buttons := 0, shift := 0, index := 8 } : Pad).index := by decide

/-- An iNES image: a header with these bytes 4 to 7, then n bytes. -/
def image (prg chr f6 f7 : Byte) (n : Nat) : List Byte :=
  [0x4E, 0x45, 0x53, 0x1A, prg, chr, f6, f7, 0, 0, 0, 0, 0, 0, 0, 0] ++ List.replicate n 0

theorem image_length (prg chr f6 f7 : Byte) (n : Nat) : (image prg chr f6 f7 n).length = 16 + n := by
  rw [image, List.length_append, List.length_replicate]
  rfl

theorem image_accepted (n : Nat) (h : 24576 ≤ n) : ∃ c, Cart.ofImage (image 1 1 0 0 n) = .ok c := by
  have hs : ¬16 + n < imageSize 1 1 := by
    unfold imageSize
    omega
  unfold Cart.ofImage
  rw [image_length]
  simp [image, bufferByte, inesMagic, headerMapper, hs]

theorem test_witness_CassetteRoundTrip :
    (∃ c, Cart.ofImage (image 1 1 0 0 24576) = .ok c) ∧ Cart.ofImage [] = .error .f8MalformedCartridge ∧
    Cart.ofImage (image 0 0 0 0 0) = .error .f8MalformedCartridge ∧ Cart.ofImage (image 1 0 4 0 0) = .error .f9UnsupportedCartridge ∧
    Cart.ofImage (image 1 0 0 0x10 0) = .error .f9UnsupportedCartridge ∧ Cart.ofImage (image 1 0 0 0 0) = .error .f8MalformedCartridge := by
  exact ⟨image_accepted 24576 (Nat.le_refl _), rfl, rfl, rfl, rfl, rfl⟩

theorem test_witness_PrgMirroring :
    (withBanks 1 1).cart.prgBanks = 1 ∧ 0x8000 ≤ (0xBFFF : Word).toNat ∧ (0xBFFF : Word).toNat < 0xC000 ∧
    idle.cart.prgBanks = 2 ∧ cellOf idle 0xFFFF = cellOf idle 0xFFFF ∧ cellOf idle 0x8000 ≠ cellOf idle 0xC000 := by decide

/-- The APU with a sequencer at this mode, counter and step. -/
def sequencer (mode : Bool) (counter step : Nat) : Apu :=
  { Apu.powerOn with fs := { mode := mode, irqInhibit := false, counter := counter, step := step } }

theorem test_witness_FrameSequencerTick :
    (sequencer false 7455 0).fs.counter + 1 < 7457 ∧ 7457 ≤ (sequencer false 7456 3).fs.counter + 1 ∧ (sequencer false 7456 3).fs.step ≤ 3 ∧
    (sequencer false 7456 3).fs.mode = false ∧ (sequencer true 7456 4).fs.mode = true ∧ (sequencer true 7456 4).fs.step ≤ 4 := by decide

theorem test_witness_DmcFetch_timers :
    (0 ≤ (Square.powerOn).timer.toNat ∧ 2047 ≤ ({ Square.powerOn with timer := 2047 } : Square).timer.toNat) ∧
    2047 ≤ ({ Apu.powerOn.tri with timer := 2047 } : Triangle).timer.toNat ∧
    2033 ≤ ({ Apu.powerOn.noise with timer := 2033 } : Noise).timer.toNat ∧
    427 ≤ ({ Apu.powerOn.dmc with timer := 427 } : Dmc).timer.toNat ∧
    Apu.powerOn.dmc.bitsLeft ≠ 1 ∧ Apu.powerOn.dmc.bufEmpty = true ∧
    ({ Apu.powerOn.dmc with bitsLeft := 1, bufEmpty := false } : Dmc).bitsLeft = 1 := by decide

theorem test_witness_DmcFetch :
    (let s : State := { idle with apu := { Apu.powerOn with dmc := { Apu.powerOn.dmc with curAddr := 0xFFFF, remaining := 1, loop := true } } }
     s.apu.dmc.bufEmpty = true ∧ s.apu.dmc.remaining ≠ 0 ∧ busRead s.apu.dmc.curAddr s = .ok 0 s) ∧ idle.apu.dmc.remaining = 0 := by
  decide

theorem test_witness_InterruptEntryAndReturn : idle.Inv ∧ (machine { cpu0 with sp := 0 } []).Inv := ⟨inv_idle, inv_machine _⟩

theorem test_witness_PowerOnReset :
    1 ≠ 0x100 + Launch.zero.sp.toNat ∧ 1 ≠ 0x100 + (Launch.zero.sp - 1).toNat ∧ 1 ≠ 0x100 + (Launch.zero.sp - 2).toNat ∧
    Memory.wf Launch.zero.wram = true := by decide

/-- The values of R91 that are not 0, and the bits beside them (10_state.md R91). -/
theorem test_powerOn_units :
    Apu.powerOn.noise.shift = 1 ∧ Apu.powerOn.noise.mode = false ∧ Apu.powerOn.dmc.bufEmpty = true ∧
    Apu.powerOn.dmc.silence = true ∧ Apu.powerOn.dmc.bitsLeft = 8 ∧ Apu.powerOn.dmc.level = 0 ∧ Apu.powerOn.fs.step = 0 ∧
    Apu.powerOn.tri.seq = 0 ∧ Ctl.powerOn.strobe = false ∧ Ctl.powerOn.pad0.index = 0 ∧ Ctl.powerOn.pad1.buttons = 0 := by decide

theorem test_witness_PowerOnReset_initialize :
    (∃ c, Cart.ofImage (image 1 1 0 0 24576) = .ok c) ∧ Cart.ofImage [] = .error .f8MalformedCartridge ∧
    (∃ s, initializeFrom Params.atReset Launch.zero (image 1 1 0 0 24576) = .ok s) ∧
    initializeFrom Params.atReset Launch.zero [] = .error .f8MalformedCartridge := by
  obtain ⟨c, hc⟩ := image_accepted 24576 (Nat.le_refl _)
  exact ⟨⟨c, hc⟩, rfl, ⟨_, initializeFrom_ok.2 ⟨c, hc, rfl⟩⟩, rfl⟩

/-- The samples of a host call are those of its steps, oldest first, in a faulted state too (R681, R616). -/
theorem test_afterSamples :
    (match afterSamples [1, 2] (.next (idle.setSamples [3])) with
      | .next t => t.samples
      | _ => []) = [1, 2, 3] ∧
    (match afterSamples [1, 2] (.fault (.f3DmaOamAddr 0 (idle.setSamples [3]))) with
      | .fault (.f3DmaOamAddr _ t) => t.samples
      | _ => []) = [1, 2, 3] := by decide

theorem test_witness_StepKeepsInvariant : idle.Inv ∧ ∃ t, step idle = .next t :=
  ⟨inv_idle, exists_next (p := fun _ => true) (by decide)⟩

theorem test_witness_StepAccounts : idle.Inv ∧ ∃ t, step idle = .next t := test_witness_StepKeepsInvariant

theorem test_witness_FrameCompletes : idle.Inv := inv_idle

end Sys2Proof.Tests
end

section
/-! SUPPORT. The invariant is kept by a completed step: the proof of O58, over the laws of the step's parts. -/

namespace Sys2Proof.Machine

/-! ## A completed step keeps the invariant (10_state.md R92) -/

/-- Counting the instruction's cycles leaves every part of the invariant but the equality of the two cycle counts, which
the APU's run restores: it counts the same cycles. -/
theorem caughtUp_inv {s t u : State} {dma c : Nat} {frame : Bool} (k : ({ s with insCycles := 0 } : State).Inv)
    (hc : c = stepCycles dma s) (hp : ppuRun (3 * c) false (countStep dma s) = .ok frame t)
    (ha : apuRun c t = .ok () u) : ({ u with frameDone := frame } : State).Inv := by
  obtain ⟨fp, kp⟩ := ppuRun_frame hp
  obtain ⟨fa, ka, hcycle⟩ := apuRun_frame ha
  obtain ⟨l, hl⟩ := fp.stack
  have happ : t.apu = s.apu := fp.apu
  have htotal : t.emu.totalCycles = s.emu.totalCycles + c := hc ▸ fp.totalCycles
  have hctl : t.ctl = s.ctl := fp.ctl
  have hin : t.sampleIn = s.sampleIn := fp.sampleIn
  have hcart : u.cart = s.cart := by rw [fa.state]; exact fp.cart
  have hwram : u.wram = pushes l s.wram := by rw [fa.state]; exact hl
  have hprgRam : u.prgRam = s.prgRam := by rw [fa.state]; exact fp.prgRam
  have hins : u.insCycles = 0 := by rw [fa.state]; exact fp.insCycles
  exact {
    ppu := ka.ppu (kp k.ppu)
    apu := ka.apu (happ ▸ k.apu)
    cart := hcart ▸ k.cart
    wram := hwram ▸ pushes_sized l k.wram
    prgRam := hprgRam ▸ k.prgRam
    index0 := ka.index0 (hctl ▸ k.index0)
    index1 := ka.index1 (hctl ▸ k.index1)
    cycles := by
      have hs : s.apu.cycle = s.emu.totalCycles := k.cycles
      have hu : u.emu.totalCycles = t.emu.totalCycles := by rw [fa.emu]
      simp only [hcycle, hu, htotal, happ, hs]
    insCycles := hins
    sampleLow := ka.sampleLow (hin ▸ k.sampleLow)
    sampleHigh := ka.sampleHigh (hin ▸ k.sampleHigh) }

/-- Settles O58: the DMA, the fetch, the instruction and the catch-up each keep their part of the invariant. -/
theorem stepKeepsInvariant : Obligations.StepKeepsInvariant := by
  intro s t k h
  obtain ⟨dma, s1, i, s2, s3, frame, s4, s5, hdma, hfetch, hexec, hppu, hapu, rfl⟩ := step_next h
  obtain ⟨-, -, -, -, hkeep⟩ := runDma_frame hdma
  have k2 : s2.Inv := (fetch_frame hfetch).inv (hkeep k)
  exact caughtUp_inv (exec_inv hexec k2) rfl hppu hapu

end Sys2Proof.Machine
end

section
/-! SUPPORT. The shape of each instruction's meaning with its mnemonic's rule filled in: the mnemonics are split here once, and a
proof about every instruction cites `execShape`; and what each shape does to
the registers. -/

namespace Sys2Proof.Machine

/-! ## The shapes of the instructions, with the rule of each mnemonic -/

/-- What the mnemonics that read a value do with it to the registers (42_arithmetic_logic.md, 41_load_store_transfer.md,
44_unofficial.md); every other mnemonic leaves them alone. -/
def readEffect (m : Mnemonic) (v : Byte) (c : Cpu) : Cpu :=
  match m with
  | .lda => c.loadA v
  | .ldx => c.loadX v
  | .ldy => c.loadY v
  | .lax => (c.loadA v).loadX v
  | .and => c.loadA (c.a &&& v)
  | .ora => c.loadA (c.a ||| v)
  | .eor => c.loadA (c.a ^^^ v)
  | .bit => { c with z := (c.a &&& v) == 0, n := v.getLsbD 7, v := v.getLsbD 6 }
  | .adc => c.addCore v
  | .sbc => c.addCore (v ^^^ 0xFF)
  | .cmp => c.compare c.a v
  | .cpx => c.compare c.x v
  | .cpy => c.compare c.y v
  | .anc => (c.loadA (c.a &&& v)).setC ((c.a &&& v).getLsbD 7)
  | .alr => (c.setC ((c.a &&& v).getLsbD 0)).loadA (shiftRight (c.a &&& v) false)
  | .arr => arrCpu v c
  | .axs => (c.setC (decide (v.toNat ≤ (c.a &&& c.x).toNat))).loadX ((c.a &&& c.x) - v)
  | _ => c

/-- What the mnemonics with no operand that work on the registers alone do. -/
def impliedEffect (m : Mnemonic) (c : Cpu) : Cpu :=
  match m with
  | .tax => c.loadX c.a
  | .tay => c.loadY c.a
  | .txa => c.loadA c.x
  | .tya => c.loadA c.y
  | .tsx => c.loadX c.sp
  | .txs => { c with sp := c.x }
  | .inx => c.loadX (c.x + 1)
  | .iny => c.loadY (c.y + 1)
  | .dex => c.loadX (c.x - 1)
  | .dey => c.loadY (c.y - 1)
  | .clc => { c with c := false }
  | .sec => { c with c := true }
  | .cli => { c with i := false }
  | .sei => { c with i := true }
  | .cld => { c with d := false }
  | .sed => { c with d := true }
  | .clv => { c with v := false }
  | _ => c

/-- The byte that a read-modify-write mnemonic writes back for the byte v it read. -/
def modifyResult (m : Mnemonic) (v : Byte) (c : Cpu) : Byte :=
  match m with
  | .inc | .isc => v + 1
  | .dec | .dcp => v - 1
  | .asl | .slo => shiftLeft v false
  | .lsr | .sre => shiftRight v false
  | .rol | .rla => shiftLeft v c.c
  | .ror | .rra => shiftRight v c.c
  | _ => v

/-- What a read-modify-write mnemonic does to the registers before the write-back: a shift's C takes the bit shifted out. -/
def modifyBefore (m : Mnemonic) (v : Byte) (c : Cpu) : Cpu :=
  match m with
  | .asl | .rol | .slo | .rla => c.setC (v.getLsbD 7)
  | .lsr | .ror | .sre | .rra => c.setC (v.getLsbD 0)
  | _ => c

/-- What a read-modify-write mnemonic does to the registers after the write-back of r. -/
def modifyAfter (m : Mnemonic) (r : Byte) (c : Cpu) : Cpu :=
  match m with
  | .inc | .dec | .asl | .lsr | .rol | .ror => c.setNZ r
  | .slo => c.loadA (c.a ||| r)
  | .rla => c.loadA (c.a &&& r)
  | .sre => c.loadA (c.a ^^^ r)
  | .rra => c.addCore r
  | .dcp => c.compare c.a r
  | .isc => c.addCore (r ^^^ 0xFF)
  | _ => c

/-- The byte that a store mnemonic stores. -/
def storeValue (m : Mnemonic) (c : Cpu) : Byte :=
  match m with
  | .stx => c.x
  | .sty => c.y
  | .sax => c.a &&& c.x
  | _ => c.a

/-- The condition of a branch mnemonic (43_control_flow.md R331 to R338). -/
def branchCondition (m : Mnemonic) (c : Cpu) : Bool :=
  match m with
  | .bcc => !c.c
  | .bcs => c.c
  | .beq => c.z
  | .bne => !c.z
  | .bmi => c.n
  | .bpl => !c.n
  | .bvc => !c.v
  | _ => c.v

/-- The shape of an instruction's meaning, its mnemonic's rule filled in. The jumps and the stack instructions keep a form
of their own. -/
inductive ExecShape (i : Instr) : Prop
  | read (o : ValueOperand) (ho : i.operand = .value o)
      (he : ∀ s, exec i s = runRead i o (readEffect i.mnemonic) s)
  | implied (ho : i.operand = .imp) (he : ∀ s, exec i s = runImplied i (impliedEffect i.mnemonic) s)
  | modify (o : ValueOperand) (ho : i.operand = .value o)
      (he : ∀ s, exec i s =
        runModify i o (modifyResult i.mnemonic) (modifyBefore i.mnemonic) (modifyAfter i.mnemonic) s)
  | store (m : MemOperand) (ho : i.operand = .value (.mem m))
      (he : ∀ s, exec i s = runStore i m (storeValue i.mnemonic) s)
  | branch (d : Int) (ho : i.operand = .rel d)
      (he : ∀ s, exec i s = runBranch i d (branchCondition i.mnemonic s.cpu) s)
  | control (hm : i.mnemonic ∈ [.pha, .php, .pla, .plp, .jsr, .rts, .rti, .brk, .jmp])
  | faults (he : ∀ s, exec i s = runFault s)

/-- Every instruction has one of the shapes. -/
theorem execShape (i : Instr) : ExecShape i := by
  cases hm : i.mnemonic
  case lda => obtain ⟨o, ho, he⟩ := exec_of_lda hm; exact .read o ho (by rw [hm]; exact he)
  case ldx => obtain ⟨o, ho, he⟩ := exec_of_ldx hm; exact .read o ho (by rw [hm]; exact he)
  case ldy => obtain ⟨o, ho, he⟩ := exec_of_ldy hm; exact .read o ho (by rw [hm]; exact he)
  case lax => obtain ⟨o, ho, he⟩ := exec_of_lax hm; exact .read o ho (by rw [hm]; exact he)
  case and => obtain ⟨o, ho, he⟩ := exec_of_and hm; exact .read o ho (by rw [hm]; exact he)
  case ora => obtain ⟨o, ho, he⟩ := exec_of_ora hm; exact .read o ho (by rw [hm]; exact he)
  case eor => obtain ⟨o, ho, he⟩ := exec_of_eor hm; exact .read o ho (by rw [hm]; exact he)
  case bit => obtain ⟨o, ho, he⟩ := exec_of_bit hm; exact .read o ho (by rw [hm]; exact he)
  case adc => obtain ⟨o, ho, he⟩ := exec_of_adc hm; exact .read o ho (by rw [hm]; exact he)
  case sbc => obtain ⟨o, ho, he⟩ := exec_of_sbc hm; exact .read o ho (by rw [hm]; exact he)
  case cmp => obtain ⟨o, ho, he⟩ := exec_of_cmp hm; exact .read o ho (by rw [hm]; exact he)
  case cpx => obtain ⟨o, ho, he⟩ := exec_of_cpx hm; exact .read o ho (by rw [hm]; exact he)
  case cpy => obtain ⟨o, ho, he⟩ := exec_of_cpy hm; exact .read o ho (by rw [hm]; exact he)
  case anc => obtain ⟨o, ho, he⟩ := exec_of_anc hm; exact .read o ho (by rw [hm]; exact he)
  case alr => obtain ⟨o, ho, he⟩ := exec_of_alr hm; exact .read o ho (by rw [hm]; exact he)
  case arr => obtain ⟨o, ho, he⟩ := exec_of_arr hm; exact .read o ho (by rw [hm]; exact he)
  case axs => obtain ⟨o, ho, he⟩ := exec_of_axs hm; exact .read o ho (by rw [hm]; exact he)
  case nop =>
    obtain ⟨ho, he⟩ | ⟨o, ho, he⟩ := exec_of_nop hm
    · exact .implied ho (by rw [hm]; exact he)
    · exact .read o ho (by rw [hm]; exact he)
  case tax => obtain ⟨ho, he⟩ := exec_of_tax hm; exact .implied ho (by rw [hm]; exact he)
  case tay => obtain ⟨ho, he⟩ := exec_of_tay hm; exact .implied ho (by rw [hm]; exact he)
  case txa => obtain ⟨ho, he⟩ := exec_of_txa hm; exact .implied ho (by rw [hm]; exact he)
  case tya => obtain ⟨ho, he⟩ := exec_of_tya hm; exact .implied ho (by rw [hm]; exact he)
  case tsx => obtain ⟨ho, he⟩ := exec_of_tsx hm; exact .implied ho (by rw [hm]; exact he)
  case txs => obtain ⟨ho, he⟩ := exec_of_txs hm; exact .implied ho (by rw [hm]; exact he)
  case inx => obtain ⟨ho, he⟩ := exec_of_inx hm; exact .implied ho (by rw [hm]; exact he)
  case iny => obtain ⟨ho, he⟩ := exec_of_iny hm; exact .implied ho (by rw [hm]; exact he)
  case dex => obtain ⟨ho, he⟩ := exec_of_dex hm; exact .implied ho (by rw [hm]; exact he)
  case dey => obtain ⟨ho, he⟩ := exec_of_dey hm; exact .implied ho (by rw [hm]; exact he)
  case clc => obtain ⟨ho, he⟩ := exec_of_clc hm; exact .implied ho (by rw [hm]; exact he)
  case sec => obtain ⟨ho, he⟩ := exec_of_sec hm; exact .implied ho (by rw [hm]; exact he)
  case cli => obtain ⟨ho, he⟩ := exec_of_cli hm; exact .implied ho (by rw [hm]; exact he)
  case sei => obtain ⟨ho, he⟩ := exec_of_sei hm; exact .implied ho (by rw [hm]; exact he)
  case cld => obtain ⟨ho, he⟩ := exec_of_cld hm; exact .implied ho (by rw [hm]; exact he)
  case sed => obtain ⟨ho, he⟩ := exec_of_sed hm; exact .implied ho (by rw [hm]; exact he)
  case clv => obtain ⟨ho, he⟩ := exec_of_clv hm; exact .implied ho (by rw [hm]; exact he)
  case inc => obtain ⟨o, ho, he⟩ := exec_of_inc hm; exact .modify o ho (by rw [hm]; exact he)
  case dec => obtain ⟨o, ho, he⟩ := exec_of_dec hm; exact .modify o ho (by rw [hm]; exact he)
  case asl => obtain ⟨o, ho, he⟩ := exec_of_asl hm; exact .modify o ho (by rw [hm]; exact he)
  case lsr => obtain ⟨o, ho, he⟩ := exec_of_lsr hm; exact .modify o ho (by rw [hm]; exact he)
  case rol => obtain ⟨o, ho, he⟩ := exec_of_rol hm; exact .modify o ho (by rw [hm]; exact he)
  case ror => obtain ⟨o, ho, he⟩ := exec_of_ror hm; exact .modify o ho (by rw [hm]; exact he)
  case slo => obtain ⟨o, ho, he⟩ := exec_of_slo hm; exact .modify o ho (by rw [hm]; exact he)
  case rla => obtain ⟨o, ho, he⟩ := exec_of_rla hm; exact .modify o ho (by rw [hm]; exact he)
  case sre => obtain ⟨o, ho, he⟩ := exec_of_sre hm; exact .modify o ho (by rw [hm]; exact he)
  case rra => obtain ⟨o, ho, he⟩ := exec_of_rra hm; exact .modify o ho (by rw [hm]; exact he)
  case dcp => obtain ⟨o, ho, he⟩ := exec_of_dcp hm; exact .modify o ho (by rw [hm]; exact he)
  case isc => obtain ⟨o, ho, he⟩ := exec_of_isc hm; exact .modify o ho (by rw [hm]; exact he)
  case sta => obtain ⟨m, ho, he⟩ := exec_of_sta hm; exact .store m ho (by rw [hm]; exact he)
  case stx => obtain ⟨m, ho, he⟩ := exec_of_stx hm; exact .store m ho (by rw [hm]; exact he)
  case sty => obtain ⟨m, ho, he⟩ := exec_of_sty hm; exact .store m ho (by rw [hm]; exact he)
  case sax => obtain ⟨m, ho, he⟩ := exec_of_sax hm; exact .store m ho (by rw [hm]; exact he)
  case bcc => obtain ⟨d, ho, he⟩ := exec_of_bcc hm; exact .branch d ho (by rw [hm]; exact he)
  case bcs => obtain ⟨d, ho, he⟩ := exec_of_bcs hm; exact .branch d ho (by rw [hm]; exact he)
  case beq => obtain ⟨d, ho, he⟩ := exec_of_beq hm; exact .branch d ho (by rw [hm]; exact he)
  case bne => obtain ⟨d, ho, he⟩ := exec_of_bne hm; exact .branch d ho (by rw [hm]; exact he)
  case bmi => obtain ⟨d, ho, he⟩ := exec_of_bmi hm; exact .branch d ho (by rw [hm]; exact he)
  case bpl => obtain ⟨d, ho, he⟩ := exec_of_bpl hm; exact .branch d ho (by rw [hm]; exact he)
  case bvc => obtain ⟨d, ho, he⟩ := exec_of_bvc hm; exact .branch d ho (by rw [hm]; exact he)
  case bvs => obtain ⟨d, ho, he⟩ := exec_of_bvs hm; exact .branch d ho (by rw [hm]; exact he)
  case pha | php | pla | plp | jsr | rts | rti | brk | jmp => exact .control (by rw [hm]; decide)
  case jam | xaa | ahx | tas | shy | shx | lxa | las =>
    exact .faults (exec_of_faults ((faults_iff i).2 (by rw [hm]; decide)))

/-! ## The registers after each shape -/

section
variable {i : Instr} {s t : State}

theorem runRead_cpu {o : ValueOperand} {f : Byte → Cpu → Cpu} (h : runRead i o f s = .next t) :
    ∃ v pc, t.cpu = { f v s.cpu with pc := pc } := by
  obtain ⟨r, s1, h1, rfl⟩ := runRead_next h
  exact ⟨r.value, _, by rw [finish_eq, State.mapCpu_cpu, (fetchValue_frame h1).cpu]⟩

theorem runImplied_cpu {f : Cpu → Cpu} (h : runImplied i f s = .next t) :
    ∃ pc, t.cpu = { f s.cpu with pc := pc } := by
  cases h
  exact ⟨_, rfl⟩

theorem runStore_cpu {m : MemOperand} {f : Cpu → Byte} (h : runStore i m f s = .next t) :
    ∃ pc, t.cpu = { s.cpu with pc := pc } := by
  obtain ⟨e, s1, -, hw, rfl⟩ := runStore_next h
  exact ⟨_, by rw [finish_eq, (busWrite_frame hw).cpu]⟩

theorem runBranch_cpu {d : Int} {cond : Bool} (h : runBranch i d cond s = .next t) :
    ∃ pc, t.cpu = { s.cpu with pc := pc } :=
  ⟨t.cpu.pc, by rw [runBranch_next h]⟩

/-- The place that a value was read from is the accumulator for the accumulator form alone. -/
theorem fetchValue_place_acc {o : ValueOperand} {r : Fetched} (h : fetchValue o s = .ok r t) (hp : r.place = .acc) :
    o = .acc := by
  cases o with
  | acc => rfl
  | imm v => cases h; cases hp
  | mem m =>
    obtain ⟨e, he⟩ := fetchAddress_ok m s
    rw [fetchValue_mem he] at h
    obtain ⟨v, s1, -, h2⟩ := Res.bind_eq_ok.1 h
    cases h2
    cases hp

/-- The write-back reaches the registers in the accumulator form alone. -/
theorem runModify_cpu {o : ValueOperand} {result : Byte → Cpu → Byte} {before after : Byte → Cpu → Cpu}
    (h : runModify i o result before after s = .next t) :
    ∃ v r pc, t.cpu = { after r (before v s.cpu) with pc := pc } ∨
      o = .acc ∧ t.cpu = { after r { before v s.cpu with a := r } with pc := pc } := by
  obtain ⟨r, s1, s2, h1, h2, ht⟩ := runModify_next h
  have hs1 : s1.cpu = s.cpu := (fetchValue_frame h1).cpu
  refine ⟨r.value, result r.value s1.cpu, t.cpu.pc, ?_⟩
  rw [ht, ← hs1]
  cases hp : r.place with
  | acc =>
    rw [hp] at h2
    cases h2
    exact .inr ⟨fetchValue_place_acc h1 hp, rfl⟩
  | none =>
    rw [hp] at h2
    cases h2
    exact .inl rfl
  | mem ea =>
    rw [hp] at h2
    have hs2 : s2.cpu = before r.value s1.cpu := (busWrite_frame h2).cpu
    exact .inl (by rw [finish_eq, State.mapCpu_cpu, hs2])

end

end Sys2Proof.Machine
end

section
/-! SUPPORT. Which instructions write which register and flag: the proof of O31. -/

namespace Sys2Proof.Machine

/-! ## Which registers an instruction writes (10_state.md R30, R31, R35, R39) -/

/-- Every register and flag that differs from c to c' is one that the spec lists the mnemonic m as writing; `acc` says that the
operand is the accumulator. What O31 claims of an instruction, as a relation of the registers before and after. -/
def WritesListed (m : Mnemonic) (acc : Prop) (c c' : Cpu) : Prop :=
  (c'.a ≠ c.a →
    m ∈ [.lda, .txa, .tya, .pla, .adc, .sbc, .and, .ora, .eor, .lax, .anc, .alr, .arr, .slo, .rla, .sre, .rra, .isc] ∨
    m ∈ [.asl, .lsr, .rol, .ror] ∧ acc) ∧
  (c'.x ≠ c.x → m ∈ [.ldx, .tax, .tsx, .inx, .dex, .lax, .axs]) ∧
  (c'.y ≠ c.y → m ∈ [.ldy, .tay, .iny, .dey]) ∧
  (c'.sp ≠ c.sp → m ∈ [.txs, .pha, .php, .pla, .plp, .jsr, .rts, .rti, .brk]) ∧
  (c'.v ≠ c.v → m ∈ [.adc, .sbc, .bit, .clv, .plp, .rti, .arr, .rra, .isc]) ∧
  (c'.d ≠ c.d → m ∈ [.cld, .sed, .plp, .rti]) ∧
  (c'.i ≠ c.i → m ∈ [.cli, .sei, .plp, .rti, .brk]) ∧
  (c'.c ≠ c.c → m ∈ [.adc, .sbc, .cmp, .cpx, .cpy, .asl, .lsr, .rol, .ror, .clc, .sec, .plp, .rti, .anc, .alr, .arr,
    .axs, .slo, .rla, .sre, .rra, .dcp, .isc]) ∧
  (c'.n ≠ c.n ∨ c'.z ≠ c.z → m ∈ [.lda, .ldx, .ldy, .lax, .tax, .tay, .txa, .tya, .tsx, .pla, .plp, .rti, .adc,
    .sbc, .and, .ora, .eor, .bit, .cmp, .cpx, .cpy, .inc, .dec, .inx, .iny, .dex, .dey, .asl, .lsr, .rol, .ror, .slo, .rla,
    .sre, .rra, .dcp, .isc, .anc, .alr, .arr, .axs]) ∧
  (c'.inNmi ≠ c.inNmi → m = .rti ∧ c'.inNmi = false)

/-- PC alone is no register that the lists speak of. -/
theorem writesListed_pc (m : Mnemonic) (acc : Prop) (c : Cpu) (pc : Word) : WritesListed m acc c { c with pc := pc } := by
  simp [WritesListed]

theorem WritesListed.refl (m : Mnemonic) (acc : Prop) (c : Cpu) : WritesListed m acc c c := by
  simp [WritesListed]

/-- What differs after two changes differs over one of them. -/
theorem of_ne_of_steps {α : Type} {x y z : α} {P : Prop} (h : y ≠ x → P) (k : z ≠ y → P) (hne : z ≠ x) : P := by
  by_cases hyx : y = x
  · exact k (hyx ▸ hne)
  · exact h hyx

/-- Two changes that obey the lists obey them together. -/
theorem WritesListed.trans {m : Mnemonic} {acc : Prop} {c c' c'' : Cpu} (h : WritesListed m acc c c')
    (k : WritesListed m acc c' c'') : WritesListed m acc c c'' := by
  obtain ⟨ha, hx, hy, hsp, hv, hd, hi, hc, hnz, hnmi⟩ := h
  obtain ⟨ka, kx, ky, ksp, kv, kd, ki, kc, knz, knmi⟩ := k
  refine ⟨of_ne_of_steps ha ka, of_ne_of_steps hx kx, of_ne_of_steps hy ky, of_ne_of_steps hsp ksp,
    of_ne_of_steps hv kv, of_ne_of_steps hd kd, of_ne_of_steps hi ki, of_ne_of_steps hc kc, ?_, fun hne => ?_⟩
  · rintro (hn | hz)
    · exact of_ne_of_steps (fun e => hnz (.inl e)) (fun e => knz (.inl e)) hn
    · exact of_ne_of_steps (fun e => hnz (.inr e)) (fun e => knz (.inr e)) hz
  · by_cases he : c''.inNmi = c'.inNmi
    · rw [he] at hne ⊢
      exact hnmi hne
    · exact knmi he

/-! Each rule's last case is every other mnemonic, which it leaves alone. -/

theorem readEffect_writesListed (m : Mnemonic) (acc : Prop) (v : Byte) (c : Cpu) :
    WritesListed m acc c (readEffect m v c) := by
  unfold readEffect
  split
  case h_18 => exact .refl m acc c
  all_goals simp [WritesListed, Cpu.loadA, Cpu.loadX, Cpu.loadY, Cpu.setNZ, Cpu.setC, Cpu.addCore, Cpu.compare, arrCpu]

theorem impliedEffect_writesListed (m : Mnemonic) (acc : Prop) (c : Cpu) :
    WritesListed m acc c (impliedEffect m c) := by
  unfold impliedEffect
  split
  case h_18 => exact .refl m acc c
  all_goals simp [WritesListed, Cpu.loadA, Cpu.loadX, Cpu.loadY, Cpu.setNZ]

theorem modifyBefore_writesListed (m : Mnemonic) (acc : Prop) (v : Byte) (c : Cpu) :
    WritesListed m acc c (modifyBefore m v c) := by
  unfold modifyBefore
  split
  case h_9 => exact .refl m acc c
  all_goals simp [WritesListed, Cpu.setC]

theorem modifyAfter_writesListed (m : Mnemonic) (acc : Prop) (r : Byte) (c : Cpu) :
    WritesListed m acc c (modifyAfter m r c) := by
  unfold modifyAfter
  split
  case h_13 => exact .refl m acc c
  all_goals simp [WritesListed, Cpu.loadA, Cpu.setNZ, Cpu.setC, Cpu.addCore, Cpu.compare]

/-- The accumulator forms are those of the four shifts. -/
theorem mnemonic_of_acc {i : Instr} (h : i.operand = .value .acc) : i.mnemonic ∈ [.asl, .lsr, .rol, .ror] := by
  cases i with
  | aslAcc | lsrAcc | rolAcc | rorAcc => decide
  | _ => cases h

/-- The write-back of an accumulator form is a listed write of A. -/
theorem writeBackAcc_writesListed {i : Instr} (h : i.operand = .value .acc) (c : Cpu) (r : Byte) :
    WritesListed i.mnemonic (i.operand = .value .acc) c { c with a := r } := by
  have hm := mnemonic_of_acc h
  simp [WritesListed, hm, h]

/-- What the jumps and the stack instructions write. -/
theorem control_writesListed {i : Instr} {s t : State} (acc : Prop)
    (hm : i.mnemonic ∈ [.pha, .php, .pla, .plp, .jsr, .rts, .rti, .brk, .jmp]) (h : exec i s = .next t) :
    WritesListed i.mnemonic acc s.cpu t.cpu := by
  simp only [List.mem_cons, List.not_mem_nil, or_false] at hm
  rcases hm with hm | hm | hm | hm | hm | hm | hm | hm | hm <;> rw [hm]
  · obtain ⟨-, he⟩ := exec_of_pha hm
    rw [he, phaForm, push_eq, finish_eq] at h
    cases h
    simp [WritesListed]
  · obtain ⟨-, he⟩ := exec_of_php hm
    rw [he, phpForm, push_eq, finish_eq] at h
    cases h
    simp [WritesListed]
  · obtain ⟨-, he⟩ := exec_of_pla hm
    rw [he, plaForm, afterPull_eq, finish_eq] at h
    cases h
    simp [WritesListed, Cpu.loadA, Cpu.setNZ]
  · obtain ⟨-, he⟩ := exec_of_plp hm
    rw [he, plpForm, afterPull_eq, finish_eq] at h
    cases h
    simp [WritesListed, Cpu.setP]
  · obtain ⟨a, -, he⟩ := exec_of_jsr hm
    rw [he, jsrForm, pushWord_eq, finishJump_eq] at h
    cases h
    simp [WritesListed]
  · obtain ⟨-, he⟩ := exec_of_rts hm
    rw [he, rtsForm, finishJump_eq] at h
    cases h
    simp [WritesListed, afterPull_eq]
  · obtain ⟨-, he⟩ := exec_of_rti hm
    rw [he, rtiForm, finishJump_eq] at h
    cases h
    simp [WritesListed, returnFromInterrupt, afterPull_eq, Cpu.setP]
  · obtain ⟨-, he⟩ := exec_of_brk hm
    rw [he, brkForm, interrupt_eq, finish_eq, finishJump_eq] at h
    split at h
    · cases h
      exact writesListed_pc _ _ _ _
    · cases h
      simp [WritesListed, IntKind.isNmi]
  · obtain ⟨a, -, he⟩ | ⟨p, -, he⟩ := exec_of_jmp hm
    · rw [he, jmpAbsForm, finishJump_eq] at h
      cases h
      exact writesListed_pc _ _ _ _
    · rw [he, jmpIndForm] at h
      obtain ⟨u, h⟩ := Res.outcome_eq_next.1 h
      obtain ⟨w, s1, h1, h2⟩ := Res.bind_eq_ok.1 h
      cases h2
      rw [finishJump_eq, State.mapCpu_cpu, (readJumpPointer_frame h1).cpu]
      exact writesListed_pc _ _ _ _

/-- Settles O31: each shape changes the registers by its mnemonic's rule, and each rule obeys the lists. -/
theorem registerWriters : Obligations.RegisterWriters := by
  intro i s t h
  show WritesListed i.mnemonic (i.operand = .value .acc) s.cpu t.cpu
  cases execShape i with
  | read o ho he =>
    obtain ⟨v, pc, hcpu⟩ := runRead_cpu ((he s).symm.trans h)
    exact hcpu ▸ (readEffect_writesListed _ _ v s.cpu).trans (writesListed_pc _ _ _ pc)
  | implied ho he =>
    obtain ⟨pc, hcpu⟩ := runImplied_cpu ((he s).symm.trans h)
    exact hcpu ▸ (impliedEffect_writesListed _ _ s.cpu).trans (writesListed_pc _ _ _ pc)
  | modify o ho he =>
    obtain ⟨v, r, pc, hcpu | ⟨rfl, hcpu⟩⟩ := runModify_cpu ((he s).symm.trans h)
    · exact hcpu ▸ ((modifyBefore_writesListed _ _ v s.cpu).trans (modifyAfter_writesListed _ _ r _)).trans
        (writesListed_pc _ _ _ pc)
    · exact hcpu ▸ (((modifyBefore_writesListed _ _ v s.cpu).trans (writeBackAcc_writesListed ho _ r)).trans
        (modifyAfter_writesListed _ _ r _)).trans (writesListed_pc _ _ _ pc)
  | store m ho he =>
    obtain ⟨pc, hcpu⟩ := runStore_cpu ((he s).symm.trans h)
    exact hcpu ▸ writesListed_pc _ _ s.cpu pc
  | branch d ho he =>
    obtain ⟨pc, hcpu⟩ := runBranch_cpu ((he s).symm.trans h)
    exact hcpu ▸ writesListed_pc _ _ s.cpu pc
  | control hm => exact control_writesListed _ hm h
  | faults he => cases (he s).symm.trans h

end Sys2Proof.Machine
end

section
/-! SUPPORT. The D flag has no part in any instruction but those that push it: the proof of O36. -/

namespace Sys2Proof.Machine

/-! ## The D flag (10_state.md R38) -/

/-- The registers with D changed. -/
def Cpu.setD (d : Bool) (c : Cpu) : Cpu := { c with d := d }

section
variable {i : Instr} {s t : State} (d : Bool)

/-- An effective address depends on X and Y alone. -/
theorem fetchAddress_setD {m : MemOperand} {e : Word × Bool} (h : fetchAddress m s = .ok e s) :
    fetchAddress m (s.mapCpu (Cpu.setD d)) = .ok e (s.mapCpu (Cpu.setD d)) := by
  cases m with
  | izx z =>
    rw [fetchAddress_izx] at h ⊢
    cases h
    rfl
  | izy z =>
    rw [fetchAddress_izy] at h ⊢
    cases h
    rfl
  | _ => cases h; rfl

theorem fetchValue_setD {o : ValueOperand} {r : Fetched} (h : fetchValue o s = .ok r t) :
    fetchValue o (s.mapCpu (Cpu.setD d)) = .ok r (t.mapCpu (Cpu.setD d)) := by
  cases o with
  | acc => cases h; rfl
  | imm v => cases h; rfl
  | mem m =>
    obtain ⟨e, he⟩ := fetchAddress_ok m s
    rw [fetchValue_mem he] at h
    obtain ⟨v, s1, hr, h⟩ := Res.bind_eq_ok.1 h
    rw [fetchValue_mem (fetchAddress_setD d he), busRead_mapCpu _ hr]
    cases h
    rfl

theorem writeBack_setD {p : Place} {v : Byte} {u : Unit} (h : writeBack p v s = .ok u t) :
    writeBack p v (s.mapCpu (Cpu.setD d)) = .ok u (t.mapCpu (Cpu.setD d)) := by
  cases p with
  | acc => cases h; rfl
  | none => cases h; rfl
  | mem ea => exact busWrite_mapCpu _ h

theorem readJumpPointer_setD {p w : Word} (h : readJumpPointer p s = .ok w t) :
    readJumpPointer p (s.mapCpu (Cpu.setD d)) = .ok w (t.mapCpu (Cpu.setD d)) := by
  obtain ⟨lo, s1, h1, h⟩ := Res.bind_eq_ok.1 h
  obtain ⟨hi, s2, h2, h⟩ := Res.bind_eq_ok.1 h
  cases h
  rw [readJumpPointer, busRead_mapCpu _ h1, Res.bind_ok, busRead_mapCpu _ h2]
  rfl

/-! ### The shapes from a state with D changed, for rules that D has no part in -/

theorem runRead_setD {o : ValueOperand} {f : Byte → Cpu → Cpu} (hf : ∀ v c, f v (c.setD d) = (f v c).setD d)
    (h : runRead i o f s = .next t) : runRead i o f (s.mapCpu (Cpu.setD d)) = .next (t.mapCpu (Cpu.setD d)) := by
  obtain ⟨r, s1, h1, rfl⟩ := runRead_next h
  rw [runRead_ok (fetchValue_setD d h1)]
  simp only [State.mapCpu, finish_eq, hf]
  rfl

theorem runImplied_setD {f : Cpu → Cpu} (hf : ∀ c, f (c.setD d) = (f c).setD d)
    (h : runImplied i f s = .next t) : runImplied i f (s.mapCpu (Cpu.setD d)) = .next (t.mapCpu (Cpu.setD d)) := by
  cases h
  simp only [runImplied_eq, State.mapCpu, finish_eq, hf]
  rfl

theorem runModify_setD {o : ValueOperand} {result : Byte → Cpu → Byte} {before after : Byte → Cpu → Cpu}
    (hr : ∀ v c, result v (Cpu.setD d c) = result v c) (hb : ∀ v c, before v (c.setD d) = (before v c).setD d)
    (ha : ∀ r c, after r (c.setD d) = (after r c).setD d) (h : runModify i o result before after s = .next t) :
    runModify i o result before after (s.mapCpu (Cpu.setD d)) = .next (t.mapCpu (Cpu.setD d)) := by
  obtain ⟨r, s1, s2, h1, h2, rfl⟩ := runModify_next h
  have hw : writeBack r.place (result r.value (s1.mapCpu (Cpu.setD d)).cpu)
      ((s1.mapCpu (Cpu.setD d)).mapCpu (before r.value)) = .ok () (s2.mapCpu (Cpu.setD d)) := by
    have h3 := writeBack_setD d h2
    simp only [State.mapCpu, hr, hb] at h3 ⊢
    exact h3
  rw [runModify_ok (fetchValue_setD d h1) hw]
  simp only [State.mapCpu, finish_eq, hr, ha]
  rfl

theorem runStore_setD {m : MemOperand} {f : Cpu → Byte} (hf : ∀ c, f (Cpu.setD d c) = f c)
    (h : runStore i m f s = .next t) : runStore i m f (s.mapCpu (Cpu.setD d)) = .next (t.mapCpu (Cpu.setD d)) := by
  obtain ⟨e, s1, he, hw, rfl⟩ := runStore_next h
  have hw' : busWrite e.1 (f (s.mapCpu (Cpu.setD d)).cpu) (s.mapCpu (Cpu.setD d)) = .ok () (s1.mapCpu (Cpu.setD d)) := by
    rw [State.mapCpu_cpu, hf]
    exact busWrite_mapCpu _ hw
  rw [runStore_ok (fetchAddress_setD d he) hw']
  rfl

theorem runBranch_setD {b : Int} {cond : Bool} (h : runBranch i b cond s = .next t) :
    runBranch i b cond (s.mapCpu (Cpu.setD d)) = .next (t.mapCpu (Cpu.setD d)) := by
  cases cond <;> cases h <;> rfl

/-! ### The rules that D has no part in -/

theorem readEffect_setD (m : Mnemonic) (v : Byte) (c : Cpu) :
    readEffect m v (c.setD d) = (readEffect m v c).setD d := by
  cases m <;> rfl

theorem impliedEffect_setD {m : Mnemonic} (hm : m ∉ [.cld, .sed, .plp, .rti]) (c : Cpu) :
    impliedEffect m (c.setD d) = (impliedEffect m c).setD d := by
  cases m
  case cld | sed => simp at hm
  all_goals rfl

theorem modifyResult_setD (m : Mnemonic) (v : Byte) (c : Cpu) : modifyResult m v (c.setD d) = modifyResult m v c := by
  cases m <;> rfl

theorem modifyBefore_setD (m : Mnemonic) (v : Byte) (c : Cpu) :
    modifyBefore m v (c.setD d) = (modifyBefore m v c).setD d := by
  cases m <;> rfl

theorem modifyAfter_setD (m : Mnemonic) (r : Byte) (c : Cpu) :
    modifyAfter m r (c.setD d) = (modifyAfter m r c).setD d := by
  cases m <;> rfl

theorem storeValue_setD (m : Mnemonic) (c : Cpu) : storeValue m (c.setD d) = storeValue m c := by
  cases m <;> rfl

theorem branchCondition_setD (m : Mnemonic) (c : Cpu) : branchCondition m (c.setD d) = branchCondition m c := by
  cases m <;> rfl

/-- The stack instructions and jumps that neither push nor write D. -/
theorem control_setD (hm : i.mnemonic ∈ [.pha, .pla, .jsr, .rts, .jmp]) (h : exec i s = .next t) :
    exec i (s.mapCpu (Cpu.setD d)) = .next (t.mapCpu (Cpu.setD d)) := by
  simp only [List.mem_cons, List.not_mem_nil, or_false] at hm
  rcases hm with hm | hm | hm | hm | hm
  · obtain ⟨-, he⟩ := exec_of_pha hm
    rw [he] at h ⊢
    cases h
    rfl
  · obtain ⟨-, he⟩ := exec_of_pla hm
    rw [he] at h ⊢
    cases h
    rfl
  · obtain ⟨a, -, he⟩ := exec_of_jsr hm
    rw [he] at h ⊢
    cases h
    rfl
  · obtain ⟨-, he⟩ := exec_of_rts hm
    rw [he] at h ⊢
    cases h
    rfl
  · obtain ⟨a, -, he⟩ | ⟨p, -, he⟩ := exec_of_jmp hm
    · rw [he] at h ⊢
      cases h
      rfl
    · rw [he] at h ⊢
      obtain ⟨u, h⟩ := Res.outcome_eq_next.1 h
      obtain ⟨w, s1, h1, h2⟩ := Res.bind_eq_ok.1 h
      cases h2
      rw [jmpIndForm, readJumpPointer_setD d h1]
      rfl

/-- An instruction that neither pushes nor writes D carries it along. -/
theorem exec_setD_kept (hm : i.mnemonic ∉ [.cld, .sed, .plp, .rti]) (hp : i.mnemonic ∉ [.php, .brk])
    (h : exec i s = .next t) : exec i (s.mapCpu (Cpu.setD d)) = .next (t.mapCpu (Cpu.setD d)) := by
  cases execShape i with
  | read o ho he =>
    rw [he] at h ⊢
    exact runRead_setD d (readEffect_setD d _) h
  | implied ho he =>
    rw [he] at h ⊢
    exact runImplied_setD d (impliedEffect_setD d hm) h
  | modify o ho he =>
    rw [he] at h ⊢
    exact runModify_setD d (modifyResult_setD d _) (modifyBefore_setD d _) (modifyAfter_setD d _) h
  | store m ho he =>
    rw [he] at h ⊢
    exact runStore_setD d (storeValue_setD d _) h
  | branch b ho he =>
    rw [he] at h ⊢
    rw [State.mapCpu_cpu, branchCondition_setD]
    exact runBranch_setD d h
  | control hc => exact control_setD d (by simp_all) h
  | faults he => cases (he s).symm.trans h

/-- An instruction that writes D does so whatever D was. -/
theorem exec_setD_written (hm : i.mnemonic ∈ [.cld, .sed, .plp, .rti]) :
    exec i (s.mapCpu (Cpu.setD d)) = exec i s := by
  simp only [List.mem_cons, List.not_mem_nil, or_false] at hm
  rcases hm with hm | hm | hm | hm
  · obtain ⟨-, he⟩ := exec_of_cld hm
    rw [he, he]
    rfl
  · obtain ⟨-, he⟩ := exec_of_sed hm
    rw [he, he]
    rfl
  · obtain ⟨-, he⟩ := exec_of_plp hm
    rw [he, he]
    rfl
  · obtain ⟨-, he⟩ := exec_of_rti hm
    rw [he, he]
    rfl

end

/-- Settles O36: an instruction either writes D whatever it was, or carries it along. -/
theorem decimalFlagHasNoEffect : Obligations.DecimalFlagHasNoEffect := by
  intro i s t d hp h
  by_cases hm : i.mnemonic ∈ [.cld, .sed, .plp, .rti]
  · rw [if_pos hm]
    exact (exec_setD_written d hm).trans h
  · rw [if_neg hm]
    exact exec_setD_kept d hm hp h

end Sys2Proof.Machine
end

section
/-! SUPPORT. The CPU bus by address range (20_memory.md R104 to R110, R120): one equation for each range of a read and of a write,
and the proofs of O8 and O9 over them. -/

namespace Sys2Proof.Machine

variable {a : Word} {d : Byte} {s : State}

/-! ## Reads -/

theorem busRead_port (lo : 0x2000 ≤ a.toNat) (hi : a.toNat < 0x4000) : busRead a s = portRead a s := by
  rw [busRead, if_neg (by omega), if_pos hi]

theorem busRead_io (lo : 0x4000 ≤ a.toNat) (hi : a.toNat < 0x4020) : busRead a s = ioRead (a.toNat - 0x4000) s := by
  rw [busRead, if_neg (by omega), if_neg (by omega), if_pos hi]

theorem busRead_unmapped (lo : 0x4020 ≤ a.toNat) (hi : a.toNat < 0x6000) :
    busRead a s = .fault (.f5Unmapped s.cpu.pc a s) := by
  rw [busRead, if_neg (by omega), if_neg (by omega), if_neg (by omega), if_pos hi]

theorem busRead_prgRam (lo : 0x6000 ≤ a.toNat) (hi : a.toNat < 0x8000) :
    busRead a s = if s.params.prgRamPresent then .ok (Memory.read s.prgRam (a.toNat - 0x6000)) s
      else .fault (.f5Unmapped s.cpu.pc a s) := by
  rw [busRead, if_neg (by omega), if_neg (by omega), if_neg (by omega), if_neg (by omega), if_pos hi]

theorem busRead_prgRom (lo : 0x8000 ≤ a.toNat) : busRead a s = .ok (prgRead s a) s := by
  rw [busRead, if_neg (by omega), if_neg (by omega), if_neg (by omega), if_neg (by omega), if_neg (by omega)]

/-- The ports with no read behaviour (45_ppu_registers.md R436). -/
theorem portRead_faults (h : a.toNat % 8 ∈ [0, 1, 3, 5, 6]) : portRead a s = .fault (.f2PpuPortRead s.cpu.pc a s) := by
  unfold portRead
  split
  case h_4 => rfl
  all_goals
    rename_i hp
    simp [hp] at h

/-- The oracle's byte, away from the APU status and the controllers (R109). -/
theorem ioRead_drawn {r : Nat} (h15 : r ≠ 0x15) (h16 : r ≠ 0x16) (h17 : r ≠ 0x17) : ioRead r s = .ok (drawn s) s.afterDraw := by
  unfold ioRead
  split
  case h_4 => rfl
  all_goals contradiction

/-! ## Writes -/

theorem busWrite_wram (hi : a.toNat < 0x2000) : busWrite a d s = .ok () (wramWrite a d s) := by
  rw [busWrite, if_pos hi]

theorem busWrite_io (lo : 0x4000 ≤ a.toNat) (hi : a.toNat < 0x4020) :
    busWrite a d s = .ok () (ioWrite (a.toNat - 0x4000) d s) := by
  rw [busWrite, if_neg (by omega), if_neg (by omega), if_pos hi]

theorem busWrite_unmapped (lo : 0x4020 ≤ a.toNat) (hi : a.toNat < 0x6000) :
    busWrite a d s = .fault (.f5Unmapped s.cpu.pc a s) := by
  rw [busWrite, if_neg (by omega), if_neg (by omega), if_neg (by omega), if_pos hi]

theorem busWrite_prgRam (lo : 0x6000 ≤ a.toNat) (hi : a.toNat < 0x8000) :
    busWrite a d s =
      if s.params.prgRamPresent then .ok () (s.mapPrgRam fun m => Memory.write m (a.toNat - 0x6000) d)
      else .fault (.f5Unmapped s.cpu.pc a s) := by
  rw [busWrite, if_neg (by omega), if_neg (by omega), if_neg (by omega), if_neg (by omega), if_pos hi]

theorem busWrite_prgRom (lo : 0x8000 ≤ a.toNat) : busWrite a d s = prgWrite a d s := by
  rw [busWrite, if_neg (by omega), if_neg (by omega), if_neg (by omega), if_neg (by omega), if_neg (by omega)]

/-- Past 0x17 no address from 0x4000 on is a register (R108). -/
theorem ioWrite_unused {r : Nat} (h : 0x18 ≤ r) : ioWrite r d s = s := by
  have hapu : s.apu.write r d = s.apu := by
    rw [Apu.write, if_neg (by omega), if_neg (by omega), if_neg (by omega), if_neg (by omega), if_neg (by omega),
      if_neg (by omega), if_neg (by omega)]
  unfold ioWrite
  split
  case h_1 => contradiction
  case h_2 => contradiction
  case h_3 => rw [State.mapApu, hapu]

/-! ## The statements -/

/-- Settles O8: each range has its equation, and the ports and 0x4000–0x401F one more. -/
theorem busReadByRange : Obligations.BusReadByRange := by
  intro s a n
  refine ⟨busRead_wram, fun lo hi hport => ?_, fun lo hi h15 h16 h17 => ?_, busRead_unmapped, busRead_prgRam, busRead_prgRom⟩
  · rw [busRead_port lo hi, portRead_faults hport]
  · rw [busRead_io lo hi, ioRead_drawn (by omega) (by omega) (by omega)]
    rfl

/-- Settles O9: each range has its equation, and 0x4000–0x401F one for each of the two cases. -/
theorem busWriteByRange : Obligations.BusWriteByRange := by
  intro s a d n
  refine ⟨busWrite_wram, fun h => ?_, fun lo hi => ?_, busWrite_unmapped, busWrite_prgRam, busWrite_prgRom⟩
  · have hn : a.toNat = 0x4014 := h
    rw [busWrite_io (by omega) (by omega), hn]
    rfl
  · rw [busWrite_io (by omega) hi, ioWrite_unused (by omega)]

end Sys2Proof.Machine
end

section
/-! SUPPORT. CPU-space storage as cells (20_memory.md R105, R130): a completed write to an address with storage sets the
one cell that the address names, so O10 is read-after-write of cells. -/

namespace Sys2Proof.Machine

variable {a b : Word} {c c' : StoreCell} {d : Byte} {s t : State}

/-- The state with byte d in one storage cell. -/
def State.setCell (c : StoreCell) (d : Byte) (s : State) : State :=
  match c with
  | .wram i => s.mapWram fun m => Memory.write m i d
  | .prgRam i => s.mapPrgRam fun m => Memory.write m i d
  | .prg i => s.mapCart fun c => { c with prg := Memory.write c.prg i d }

/-- Which cell an address names depends on the parameters and the cassette's size alone. -/
theorem cellOf_setCell (c : StoreCell) (d : Byte) (s : State) (a : Word) : cellOf (s.setCell c d) a = cellOf s a := by
  cases c <;> rfl

theorem cellByte_setCell_same (k : s.Inv) (c : StoreCell) (d : Byte) : cellByte (s.setCell c d) c = d := by
  cases c with
  | wram i => exact Memory.read_write_same i d k.wram.1
  | prgRam i => exact Memory.read_write_same i d k.prgRam.1
  | prg i => exact Memory.read_write_same i d k.cart.prg.1

theorem cellByte_setCell_other (h : c' ≠ c) : cellByte (s.setCell c d) c' = cellByte s c' := by
  cases c <;> cases c'
  case wram.wram i j => exact Memory.read_write_other d fun e => h (congrArg _ e)
  case prgRam.prgRam i j => exact Memory.read_write_other d fun e => h (congrArg _ e)
  case prg.prg i j => exact Memory.read_write_other d fun e => h (congrArg _ e)
  all_goals rfl

/-- The three ranges with storage, and the cell that an address of each names. -/
theorem cellOf_eq_some (h : cellOf s a = some c) :
    (a.toNat < 0x2000 ∧ c = .wram (wramIndex a)) ∨
    (0x6000 ≤ a.toNat ∧ a.toNat < 0x8000 ∧ s.params.prgRamPresent = true ∧ c = .prgRam (a.toNat - 0x6000)) ∨
    (0x8000 ≤ a.toNat ∧ c = .prg ((a.toNat - 0x8000) % s.cart.prgSize)) := by
  unfold cellOf at h
  split at h
  · exact .inl ⟨‹_›, (Option.some.inj h).symm⟩
  split at h
  · cases h
  split at h
  · split at h
    · exact .inr (.inl ⟨by omega, ‹_›, ‹_›, (Option.some.inj h).symm⟩)
    · cases h
  · exact .inr (.inr ⟨by omega, (Option.some.inj h).symm⟩)

/-- A write that completes at an address with storage sets the cell that the address names. -/
theorem busWrite_stored (hc : cellOf s a = some c) (h : busWrite a d s = .ok () t) : t = s.setCell c d := by
  obtain ⟨hi, rfl⟩ | ⟨lo, hi, present, rfl⟩ | ⟨lo, rfl⟩ := cellOf_eq_some hc
  · rw [busWrite_wram hi] at h
    exact (Res.ok.inj h).2.symm
  · rw [busWrite_prgRam lo hi, if_pos present] at h
    exact (Res.ok.inj h).2.symm
  · rw [busWrite_prgRom lo, prgWrite] at h
    split at h
    case isTrue inside =>
      rw [Nat.mod_eq_of_lt inside]
      exact (Res.ok.inj h).2.symm
    case isFalse => cases h

/-- Settles O10: the write sets the cell that the address names, and no other. -/
theorem storageReadsBackItsLastWrite : Obligations.StorageReadsBackItsLastWrite := by
  intro s t a d c k ha h
  obtain rfl := busWrite_stored ha h
  refine ⟨fun b hb => busRead_stored ?_, fun b hb => ?_⟩
  · rw [storedByte, cellOf_setCell, hb, Option.map_some, cellByte_setCell_same k]
  · rw [storedByte, storedByte, cellOf_setCell]
    cases hc' : cellOf s b with
    | none => rfl
    | some c' =>
      have hne : c' ≠ c := fun e => hb (hc'.trans (congrArg some e))
      rw [Option.map_some, Option.map_some, cellByte_setCell_other hne]

end Sys2Proof.Machine
end

section
/-! SUPPORT. OAM DMA from a page of storage (20_memory.md R121, R122): the copy writes OAM alone, so every source read is the one
that the first state answers; the proof of O48. -/

namespace Sys2Proof.Machine

/-- The state with this OAM. -/
def State.setOam (m : Memory) (s : State) : State := s.mapPpu fun p => { p with oam := m }

/-- OAM holds no byte that a CPU address names. -/
theorem storedByte_setOam (m : Memory) (s : State) (a : Word) : storedByte (s.setOam m) a = storedByte s a := rfl

/-- The copy from index i up: n bytes of the page, and the OAM bytes below i as they were. -/
theorem dmaCopy_stored {f : Nat → Byte} {n i : Nat} {s : State} (w : Memory.wf s.ppu.oam = true)
    (h : ∀ k, i ≤ k → k < i + n → storedByte s (wordOf (BitVec.ofNat 8 k) s.bus.dmaPage) = some (f k)) :
    ∃ m, dmaCopy n i s = .ok () (s.setOam m) ∧ (∀ k, k < i → Memory.read m k = Memory.read s.ppu.oam k) ∧
      ∀ k, i ≤ k → k < i + n → Memory.read m k = f k := by
  induction n generalizing i s with
  | zero => exact ⟨s.ppu.oam, rfl, fun _ _ => rfl, fun k lo hi => absurd hi (by omega)⟩
  | succ n ih =>
    have hread := busRead_stored (h i (le_refl i) (by omega))
    obtain ⟨m, hcopy, below, copied⟩ := ih (i := i + 1) (s := s.setOam (Memory.write s.ppu.oam i (f i)))
      (Memory.wf_write i (f i) w) fun k lo hi => h k (by omega) (by omega)
    refine ⟨m, ?_, fun k hk => ?_, fun k lo hi => ?_⟩
    · rw [dmaCopy, hread, Res.bind_ok]
      exact hcopy
    · rw [below k (by omega)]
      exact Memory.read_write_other (f i) (by omega)
    · obtain rfl | hlt := Nat.eq_or_lt_of_le lo
      · rw [below i (by omega)]
        exact Memory.read_write_same i (f i) w
      · exact copied k hlt (by omega)

/-- Settles O48: the three outcomes of `runDma`, with the copy of a whole page in the first. -/
theorem oamDma : Obligations.OamDma := by
  refine ⟨fun s f k pending zero source => ?_, fun s pending nonzero => ?_, fun s idle => ?_⟩
  · obtain ⟨m, hcopy, -, copied⟩ := dmaCopy_stored (i := 0) (n := 256) k.ppu.oam.1 fun k _ hk => source k (by omega)
    refine ⟨(s.setOam m).mapBus fun b => { b with dmaPending := false }, ?_, fun k hk => copied k (Nat.zero_le k) (by omega), rfl⟩
    rw [runDma, if_pos pending, if_neg (not_not_intro zero), hcopy, Res.bind_ok]
  · rw [runDma, if_pos pending, if_pos nonzero]
  · rw [runDma, if_neg (by simp [idle])]

end Sys2Proof.Machine
end

section
/-! SUPPORT. The mirroring of the PPU space (20_memory.md R113, R114): each index as arithmetic on the address, of which O40 is a
consequence. -/

namespace Sys2Proof.Machine

theorem ntIndex_horizontal {a : Nat} (h : 0x2000 ≤ a) : ntIndex .horizontal a = 0x800 * (a / 0x800 % 2) + a % 0x400 := by
  have screen : ∀ s, s < 4 → s &&& 2 = s / 2 * 2 := by decide
  have hs := screen ((a - 0x2000) % 0x1000 / 0x400) (by omega)
  simp only [ntIndex, hs]
  omega

theorem ntIndex_vertical {a : Nat} (h : 0x2000 ≤ a) : ntIndex .vertical a = 0x400 * (a / 0x400 % 2) + a % 0x400 := by
  simp only [ntIndex, Nat.and_one_is_mod]
  omega

theorem ntIndex_mirror (m : Mirroring) {a : Nat} (h : 0x3000 ≤ a) : ntIndex m a = ntIndex m (a - 0x1000) := by
  have offset : (a - 0x1000 - 0x2000) % 0x1000 = (a - 0x2000) % 0x1000 := by omega
  simp only [ntIndex, offset]

/-- Two horizontally mirrored addresses name one byte exactly when their offsets and their pairs of screens are the same. -/
theorem ntIndex_horizontal_inj {a b : Nat} (ha : 0x2000 ≤ a) (hb : 0x2000 ≤ b) :
    ntIndex .horizontal a = ntIndex .horizontal b ↔ a % 0x400 = b % 0x400 ∧ a / 0x800 % 2 = b / 0x800 % 2 := by
  rw [ntIndex_horizontal ha, ntIndex_horizontal hb]
  omega

theorem ntIndex_vertical_inj {a b : Nat} (ha : 0x2000 ≤ a) (hb : 0x2000 ≤ b) :
    ntIndex .vertical a = ntIndex .vertical b ↔ a % 0x400 = b % 0x400 ∧ a / 0x400 % 2 = b / 0x400 % 2 := by
  rw [ntIndex_vertical ha, ntIndex_vertical hb]
  omega

/-- The backdrop entries repeat every 16 addresses, the others every 32. -/
theorem palIndex_eq (a : Nat) : palIndex a = if a % 4 = 0 then a % 0x10 else a % 0x20 := by
  simp only [palIndex]
  split <;> split <;> omega

theorem palIndex_inj (a b : Nat) : palIndex a = palIndex b ↔
    a % 0x20 = b % 0x20 ∨ (a % 0x20) % 4 = 0 ∧ (b % 0x20) % 4 = 0 ∧ a % 0x10 = b % 0x10 := by
  rw [palIndex_eq, palIndex_eq]
  split <;> split <;> omega

/-- Settles O40: aliasing is equality of the indices' arithmetic. -/
theorem ppuSpaceMirroring : Obligations.PpuSpaceMirroring := by
  refine ⟨fun m a lo _ => ntIndex_mirror m lo, fun k hk => ?_, fun k j hk hj => ?_, fun m a b ha _ hb _ => ⟨ntIndex_lt m a, ?_⟩,
    fun a => ?_, palIndex_inj⟩
  · rw [ntIndex_horizontal_inj (by omega) (by omega), ntIndex_horizontal_inj (by omega) (by omega),
      ntIndex_vertical_inj (by omega) (by omega), ntIndex_vertical_inj (by omega) (by omega)]
    omega
  · rw [Ne, Ne, ntIndex_horizontal_inj (by omega) (by omega), ntIndex_vertical_inj (by omega) (by omega)]
    omega
  · cases m with
    | horizontal => exact ntIndex_horizontal_inj ha hb
    | vertical => exact ntIndex_vertical_inj ha hb
  · rw [palIndex, palIndex, Nat.add_mod_right]

end Sys2Proof.Machine
end

section
/-! SUPPORT. The decoder and the encoder are inverse to each other (30_encoding.md R160 to R175): an instruction is its row and its
operand, and an operand is its mode and its bytes; the proofs of O3 and O4. -/

namespace Sys2Proof.Machine

/-! ## Operands and their bytes (30_encoding.md R161 to R166) -/

/-- The operand that bytes 1 and 2 of an instruction of each mode stand for (R162 to R166). -/
def operandOf (m : Mode) (b1 b2 : Byte) : Operand :=
  match m with
  | .imp => .imp
  | .acc => .value .acc
  | .imm => .value (.imm b1)
  | .zp => .value (.mem (.zp b1))
  | .zpx => .value (.mem (.zpx b1))
  | .zpy => .value (.mem (.zpy b1))
  | .rel => .rel (displacementOf b1)
  | .abs => .value (.mem (.abs (wordOf b1 b2)))
  | .abx => .value (.mem (.abx (wordOf b1 b2)))
  | .aby => .value (.mem (.aby (wordOf b1 b2)))
  | .ind => .ind (wordOf b1 b2)
  | .izx => .value (.mem (.izx b1))
  | .izy => .value (.mem (.izy b1))

/-- The operand has bytes: a displacement must fit its byte (R166, R175). -/
def operandFits (o : Operand) : Bool :=
  match o with
  | .rel d => displacementFits d
  | .imp | .value _ | .ind _ => true

theorem operandFits_operandOf (m : Mode) (b1 b2 : Byte) : operandFits (operandOf m b1 b2) = true := by
  cases m
  case rel => exact displacementFits_displacementOf b1
  all_goals rfl

/-- The bytes of an operand are the bytes it was assembled from, those past the mode's length apart. -/
theorem bytes_operandOf (m : Mode) (b1 b2 : Byte) :
    (operandOf m b1 b2).bytes = [b1, b2].take (m.length - 1) := by
  cases m <;> simp [operandOf, Operand.bytes, MemOperand.bytes, Mode.length]

/-- The bytes past the mode's length have no part in the operand. -/
theorem operandOf_congr {m : Mode} {b1 b2 c1 c2 : Byte}
    (h : [b1, b2].take (m.length - 1) = [c1, c2].take (m.length - 1)) : operandOf m b1 b2 = operandOf m c1 c2 := by
  cases m <;> simp_all [operandOf, Mode.length]

/-- Every operand that fits is assembled from its bytes. -/
theorem exists_operandOf {o : Operand} (h : operandFits o = true) : ∃ b1 b2, o = operandOf (operandMode o) b1 b2 := by
  match o with
  | .imp | .value .acc => exact ⟨0, 0, rfl⟩
  | .value (.imm b) | .value (.mem (.zp b)) | .value (.mem (.zpx b)) | .value (.mem (.zpy b)) | .value (.mem (.izx b))
  | .value (.mem (.izy b)) => exact ⟨b, 0, rfl⟩
  | .value (.mem (.abs w)) | .value (.mem (.abx w)) | .value (.mem (.aby w)) | .ind w =>
    exact ⟨loByte w, hiByte w, by rw [operandMode, operandOf, wordOf_loByte_hiByte]⟩
  | .rel d => exact ⟨displacementByte d, 0, congrArg Operand.rel (displacementOf_displacementByte h).symm⟩

/-! ## The rows of the opcode map

Where an opcode is to be decoded, `dsimp` first puts the row's literal in its place: the grid's row and column are computed from
literals alone. -/

/-- The operand has the form of the row's mode (R161). -/
theorem operandMode_operand (i : Instr) : operandMode i.operand = i.row.mode := by
  cases i <;> rfl

theorem wellFormed_eq_operandFits (i : Instr) : i.wellFormed = operandFits i.operand := by
  cases i <;> rfl

/-- A row is found from its opcode, whatever bytes follow (R160, R167). -/
theorem row_decodeOp_opcode (i : Instr) (b1 b2 : Byte) : (decodeOp i.row.opcode b1 b2).row = i.row := by
  cases i <;> (dsimp only [Instr.row]; rfl)

theorem operand_decodeOp_opcode (i : Instr) (b1 b2 : Byte) :
    (decodeOp i.row.opcode b1 b2).operand = operandOf i.row.mode b1 b2 := by
  cases i <;> (dsimp only [Instr.row]; rfl)

/-- An instruction is decoded from its row's opcode and the bytes that its operand is assembled from. -/
theorem decodeOp_of_operand {i : Instr} {b1 b2 : Byte} (h : i.operand = operandOf i.row.mode b1 b2) :
    decodeOp i.row.opcode b1 b2 = i := by
  cases i <;> cases h <;> (dsimp only [Instr.row]; rfl)

/-- Every byte is the opcode of the row it decodes to: the grid has no hole (R167, R173). -/
theorem opcode_decodeOp_zero : ∀ op : Byte, (decodeOp op 0 0).row.opcode = op := by
  decide

section
variable (op b1 b2 : Byte)

theorem row_decodeOp : (decodeOp op b1 b2).row = (decodeOp op 0 0).row := by
  have h := row_decodeOp_opcode (decodeOp op 0 0) b1 b2
  rwa [opcode_decodeOp_zero] at h

theorem opcode_decodeOp : (decodeOp op b1 b2).row.opcode = op := by
  rw [row_decodeOp, opcode_decodeOp_zero]

theorem length_decodeOp : (decodeOp op b1 b2).length = (decodeOp op 0 0).length := by
  rw [Instr.length, row_decodeOp, Instr.length]

theorem operand_decodeOp : (decodeOp op b1 b2).operand = operandOf (decodeOp op b1 b2).row.mode b1 b2 := by
  have h := operand_decodeOp_opcode (decodeOp op b1 b2) b1 b2
  rwa [opcode_decodeOp] at h

theorem wellFormed_decodeOp : (decodeOp op b1 b2).WellFormed := by
  rw [Instr.WellFormed, wellFormed_eq_operandFits, operand_decodeOp]
  exact operandFits_operandOf _ b1 b2

/-- The encoding of a decoded instruction is the bytes that decoding reads (R160, R167). -/
theorem encode_decodeOp : encode (decodeOp op b1 b2) = [op, b1, b2].take (decodeOp op b1 b2).length := by
  rw [encode, opcode_decodeOp, operand_decodeOp, bytes_operandOf, ← Instr.length]
  rcases length_cases (decodeOp op b1 b2) with h | h | h <;> rw [h] <;> rfl

/-- An instruction does not depend on the bytes that it does not have (R160). -/
theorem decodeOp_congr {c1 c2 : Byte}
    (h : [b1, b2].take ((decodeOp op b1 b2).length - 1) = [c1, c2].take ((decodeOp op b1 b2).length - 1)) :
    decodeOp op c1 c2 = decodeOp op b1 b2 := by
  have hi := decodeOp_of_operand ((operand_decodeOp op b1 b2).trans (operandOf_congr h))
  rwa [opcode_decodeOp] at hi

end

/-- Every well-formed instruction is decoded from an opcode and two bytes. -/
theorem exists_decodeOp {i : Instr} (h : i.WellFormed) : ∃ op b1 b2, i = decodeOp op b1 b2 := by
  rw [Instr.WellFormed, wellFormed_eq_operandFits] at h
  obtain ⟨b1, b2, ho⟩ := exists_operandOf h
  rw [operandMode_operand] at ho
  exact ⟨i.row.opcode, b1, b2, (decodeOp_of_operand ho).symm⟩

/-! ## The decoder (30_encoding.md R160, R167, R174) -/

/-- The decoder reads an instruction's own bytes and leaves the rest. -/
theorem decode_take_append (op b1 b2 : Byte) (rest : List Byte) :
    decode ([op, b1, b2].take (decodeOp op b1 b2).length ++ rest) = .ok (decodeOp op b1 b2, rest) := by
  have h0 := length_decodeOp op b1 b2
  rcases length_cases (decodeOp op b1 b2) with h | h | h <;> rw [h] at h0 ⊢ <;>
    simp only [List.take, List.cons_append, List.nil_append, decode, ← h0]
  -- An instruction of one or two bytes was decoded with 0 for the bytes it does not have.
  all_goals rw [decodeOp_congr op b1 b2 (by rw [h]; rfl)]

/-- A string that ends before its instruction does is rejected. -/
theorem decode_of_short {op : Byte} {tail : List Byte} (h : tail.length + 1 < (decodeOp op 0 0).length) :
    decode (op :: tail) = .error .operandBytesMissing := by
  unfold decode
  rcases length_cases (decodeOp op 0 0) with hl | hl | hl <;> simp only [hl] at h ⊢
  · omega
  · match tail with
    | [] => rfl
  · match tail with
    | [] | [_] => rfl

/-- A string that holds its opcode's length begins with an instruction's bytes. -/
theorem exists_take_append {op : Byte} {tail : List Byte} (h : (decodeOp op 0 0).length ≤ tail.length + 1) :
    ∃ b1 b2 rest, op :: tail = [op, b1, b2].take (decodeOp op b1 b2).length ++ rest := by
  simp only [length_decodeOp op]
  rcases length_cases (decodeOp op 0 0) with hl | hl | hl <;> rw [hl] at h ⊢
  · exact ⟨0, 0, tail, rfl⟩
  · match tail with
    | b1 :: rest => exact ⟨b1, 0, rest, rfl⟩
  · match tail with
    | b1 :: b2 :: rest => exact ⟨b1, b2, rest, rfl⟩

/-- What the decoder does with any string: there is no opcode, or the string ends too early, or it is the encoding of a decoded
instruction and the rest. -/
theorem decode_cases (bytes : List Byte) :
    (bytes = [] ∧ decode bytes = .error .noOpcode) ∨
    (∃ op tail, bytes = op :: tail ∧ bytes.length < (decodeOp op 0 0).length ∧ decode bytes = .error .operandBytesMissing) ∨
    ∃ op b1 b2 rest, bytes = encode (decodeOp op b1 b2) ++ rest ∧ decode bytes = .ok (decodeOp op b1 b2, rest) := by
  match bytes with
  | [] => exact .inl ⟨rfl, rfl⟩
  | op :: tail =>
    obtain short | full := Nat.lt_or_ge (tail.length + 1) (decodeOp op 0 0).length
    · exact .inr (.inl ⟨op, tail, rfl, short, decode_of_short short⟩)
    · obtain ⟨b1, b2, rest, hb⟩ := exists_take_append full
      rw [hb]
      exact .inr (.inr ⟨op, b1, b2, rest, by rw [encode_decodeOp], decode_take_append op b1 b2 rest⟩)

/-- Settles O3: a well-formed instruction is decoded from its own bytes. -/
theorem decodeOfEncode : Obligations.DecodeOfEncode := by
  intro i rest h
  obtain ⟨op, b1, b2, rfl⟩ := exists_decodeOp h
  rw [encode_decodeOp, decode_take_append]

/-- Settles O4: each of the three outcomes of the decoder is one of the three claims. -/
theorem encodeOfDecode : Obligations.EncodeOfDecode := by
  refine ⟨fun bytes rest i h => ?_, fun op b1 b2 rest => ?_, fun bytes e h => ?_⟩
  · obtain ⟨-, hd⟩ | ⟨op, tail, -, -, hd⟩ | ⟨op, b1, b2, rest', hb, hd⟩ := decode_cases bytes <;> cases hd.symm.trans h
    exact ⟨wellFormed_decodeOp op b1 b2, hb⟩
  · have hd := decode_take_append op b1 b2 ([op, b1, b2].drop (decodeOp op b1 b2).length ++ rest)
    rw [← List.append_assoc, List.take_append_drop] at hd
    exact ⟨_, _, hd⟩
  · obtain ⟨hb, -⟩ | ⟨op, tail, hb, short, -⟩ | ⟨op, b1, b2, rest, -, hd⟩ := decode_cases bytes
    · exact .inl hb
    · exact .inr ⟨op, tail, hb, short⟩
    · cases hd.symm.trans h

end Sys2Proof.Machine
end

section
/-! SUPPORT. The columns of the opcode map (30_encoding.md R161, R168, R170, R172; 40_addressing_modes.md R213): a fact of every row
is a fact of the rows of the 256 opcodes; the proofs of O5 and O2. -/

namespace Sys2Proof.Machine

/-- The table is the rows of the 256 opcodes, so a fact of every row is decided opcode by opcode (R172, R173). -/
theorem forall_row {P : Row → Prop} (h : ∀ op, P (decodeOp op 0 0).row) (i : Instr) : P i.row :=
  row_decodeOp_opcode i 0 0 ▸ h i.row.opcode

/-- A class of mnemonics has the modes and base cycles that its opcodes' rows have. -/
theorem baseCycles_of_opcodes {ms : List Mnemonic} {costs : List (Mode × Nat)}
    (h : ∀ op, (decodeOp op 0 0).row.mnemonic ∈ ms →
      ((decodeOp op 0 0).row.mode, (decodeOp op 0 0).row.baseCycles) ∈ costs) (i : Instr) (hm : i.mnemonic ∈ ms) :
    (i.row.mode, i.row.baseCycles) ∈ costs :=
  forall_row (P := fun r => r.mnemonic ∈ ms → (r.mode, r.baseCycles) ∈ costs) h i hm

/-- The rows with the page-cross cycle, the faulting rows apart (40_addressing_modes.md R213). -/
theorem pageCross_iff (i : Instr) (h : i.faults = false) : i.row.pageCross = true ↔
    i.row.mode ∈ [.abx, .aby, .izy] ∧ i.mnemonic ∈ [.lda, .ldx, .ldy, .adc, .sbc, .and, .ora, .eor, .cmp, .lax, .nop] :=
  forall_row (P := fun r => r.status.faults = false → (r.pageCross = true ↔
    r.mode ∈ [.abx, .aby, .izy] ∧ r.mnemonic ∈ [.lda, .ldx, .ldy, .adc, .sbc, .and, .ora, .eor, .cmp, .lax, .nop]))
    (by decide) i h

/-- An operand has as many bytes as its mode leaves after the opcode (R161). -/
theorem length_bytes (o : Operand) : o.bytes.length + 1 = (operandMode o).length := by
  unfold operandMode
  split <;> rfl

theorem length_encode (i : Instr) : (encode i).length = i.length := by
  rw [encode, List.length_cons, length_bytes, operandMode_operand, Instr.length]

/-- Settles O5: the classes' base cycles are read off the 256 rows. -/
theorem opcodeMapColumns : Obligations.OpcodeMapColumns := by
  intro i
  refine ⟨operandMode_operand i, length_cases i, length_encode i, two_le_baseCycles i, pageCross_iff i, faults_iff i,
    baseCycles_of_opcodes (by decide) i, baseCycles_of_opcodes (by decide) i, baseCycles_of_opcodes (by decide) i,
    fun hm => ?branches, fun hm => ?registers⟩
  case branches => exact List.mem_singleton.1 (baseCycles_of_opcodes (by decide) i hm)
  case registers => exact List.mem_singleton.1 (baseCycles_of_opcodes (by decide) i hm)

/-- Settles O2: the decoder run on each of the words. -/
theorem opcodeTableWordsDecode : Obligations.OpcodeTableWordsDecode := by
  unfold Obligations.OpcodeTableWordsDecode
  decide

end Sys2Proof.Machine
end

section
/-! SUPPORT. The effective addresses as 40_addressing_modes.md R204 to R210 write them, with pages compared by mask, and the
forms of a value (R202, R203, R214); the proofs of O6 and O7. -/

namespace Sys2Proof.Machine

/-! ## Pages and page-0 pointers -/

/-- The mask keeps the page and clears the low byte. -/
theorem and_FF00 (a : Word) : a &&& 0xFF00 = wordOf 0 (hiByte a) := by
  apply BitVec.eq_of_getLsbD_eq
  intro k hk
  simp only [wordOf, hiByte, BitVec.getLsbD_and, BitVec.getLsbD_append]
  interval_cases k <;> simp

/-- Two addresses differ in their page exactly where they differ under the mask (R208). -/
theorem pageCross_eq (a b : Word) : pageCross a b = decide (a &&& 0xFF00 ≠ b &&& 0xFF00) := by
  have page : hiByte a ≠ hiByte b ↔ a &&& 0xFF00 ≠ b &&& 0xFF00 := by
    rw [and_FF00, and_FF00]
    exact not_congr ⟨congrArg (wordOf 0), fun h => by simpa using congrArg hiByte h⟩
  rw [pageCross, Bool.eq_iff_iff, bne_iff_ne, decide_eq_true_iff, page]

/-- A page-0 address is below the first mirror of work RAM, so it is its own index (20_memory.md R105). -/
theorem wramRead_zeroPage (s : State) (z : Byte) : wramRead s (zeroPage z) = Memory.read s.wram z.toNat := by
  have index : wramIndex (zeroPage z) = z.toNat := by
    have := z.isLt
    simp only [wramIndex, zeroPage, BitVec.toNat_setWidth]
    omega
  rw [wramRead, index]

/-! ## The statements -/

/-- Settles O6: the definition's forms, with the page comparison by mask and the pointer bytes read from page 0. -/
theorem effectiveAddresses : Obligations.EffectiveAddresses := by
  intro s z a
  refine ⟨rfl, rfl, rfl, rfl, ?abx, ?aby, ?izx, ?izy⟩
  case abx => rw [fetchAddress, pageCross_eq]
  case aby => rw [fetchAddress, pageCross_eq]
  case izx => rw [fetchAddress_izx, wramRead_zeroPage, wramRead_zeroPage]; rfl
  case izy => rw [fetchAddress_izy, wramRead_zeroPage, wramRead_zeroPage, pageCross_eq]; rfl

/-- Settles O7: a memory operand's value is the one read at its effective address, or that read's fault. -/
theorem fetchValueForms : Obligations.FetchValueForms := by
  intro s v m
  obtain ⟨e, he⟩ := fetchAddress_ok m s
  refine ⟨rfl, rfl, e, he, fun b t hr => ?_, fun f hr => ?_⟩
  · rw [fetchValue_mem he, hr, Res.bind_ok]
  · rw [fetchValue_mem he, hr, Res.bind_fault]

end Sys2Proof.Machine
end

section
/-! SUPPORT. What an instruction that stores nothing can do: at most reads, which leave every byte of memory alone; the proof of
O32. -/

namespace Sys2Proof.Machine

/-! ## A read leaves memory alone (20_memory.md R116) -/

section
variable {s t : State}

/-- A byte of the PPU space depends on the nametables, the palette and the cassette alone. -/
theorem ppuPeek_congr (hcart : t.cart = s.cart) (hnt : t.ppu.nt = s.ppu.nt) (hpal : t.ppu.pal = s.ppu.pal) (a : Nat) :
    ppuPeek t a = ppuPeek s a := by
  simp only [ppuPeek, Ppu.palRead, hcart, hnt, hpal]

variable (h : ReadFrame s t)
include h

theorem ReadFrame.cellOf (a : Word) : cellOf t a = cellOf s a := by rw [h.state]; rfl

theorem ReadFrame.storedByte (a : Word) : storedByte t a = storedByte s a := by rw [h.state]; rfl

theorem ReadFrame.oam : t.ppu.oam = s.ppu.oam := by rw [h.ppu]

theorem ReadFrame.ppuPeek (a : Nat) : ppuPeek t a = ppuPeek s a :=
  ppuPeek_congr h.cart (by rw [h.ppu]) (by rw [h.ppu]) a

/-- A read leaves the controllers but for how far each has been read (48_controllers_cassette.md R633). -/
theorem ReadFrame.ctl : t.ctl = { s.ctl with
    pad0 := { s.ctl.pad0 with index := t.ctl.pad0.index }, pad1 := { s.ctl.pad1 with index := t.ctl.pad1.index } } := by
  rw [← h.pad0, ← h.pad1]
  exact congrArg (fun b => { t.ctl with strobe := b }) h.strobe

end

/-! ## Instructions that only read -/

/-- Outside the CPU registers and the returned cycles, t is s after reads. -/
def OnlyReads (s t : State) : Prop :=
  ∃ s1, ReadFrame s s1 ∧ t = { s1 with cpu := t.cpu, insCycles := t.insCycles }

section
variable {i : Instr} {s t : State}

theorem runImplied_onlyReads {f : Cpu → Cpu} (h : runImplied i f s = .next t) : OnlyReads s t := by
  cases h
  exact ⟨s, .refl s, rfl⟩

theorem runRead_onlyReads {o : ValueOperand} {f : Byte → Cpu → Cpu} (h : runRead i o f s = .next t) : OnlyReads s t := by
  obtain ⟨r, s1, h1, rfl⟩ := runRead_next h
  exact ⟨s1, fetchValue_frame h1, rfl⟩

theorem runBranch_onlyReads {d : Int} {cond : Bool} (h : runBranch i d cond s = .next t) : OnlyReads s t :=
  ⟨s, .refl s, by rw [runBranch_next h]⟩

/-- An accumulator form writes back to A. -/
theorem runModify_acc_onlyReads {result : Byte → Cpu → Byte} {before after : Byte → Cpu → Cpu}
    (h : runModify i .acc result before after s = .next t) : OnlyReads s t := by
  cases h
  exact ⟨s, .refl s, rfl⟩

/-- The read-modify-write instructions have the shape with their mnemonic's rule. -/
theorem exec_eq_runModify (hm : i.mnemonic ∈ [.inc, .dec, .asl, .lsr, .rol, .ror, .slo, .rla, .sre, .rra, .dcp, .isc]) :
    ∃ o, i.operand = .value o ∧ ∀ s, exec i s =
      runModify i o (modifyResult i.mnemonic) (modifyBefore i.mnemonic) (modifyAfter i.mnemonic) s := by
  have shape := rowShape_operand i
  have he := exec_eq_rowForm i
  simp only [List.mem_cons, List.not_mem_nil, or_false] at hm
  rcases hm with hm | hm | hm | hm | hm | hm | hm | hm | hm | hm | hm | hm <;> rw [hm] at shape he ⊢
  all_goals
    cases ho : i.operand <;> rw [ho] at shape he
    case value o => exact ⟨o, rfl, he⟩
    all_goals cases shape

/-- The stack instructions that pull, and the jumps that push nothing, read work RAM or their pointer. -/
theorem control_onlyReads (hm : i.mnemonic ∈ [.pla, .plp, .rts, .rti, .jmp]) (h : exec i s = .next t) : OnlyReads s t := by
  simp only [List.mem_cons, List.not_mem_nil, or_false] at hm
  rcases hm with hm | hm | hm | hm | hm
  · obtain ⟨-, he⟩ := exec_of_pla hm
    simp only [he, plaForm, afterPull_eq, State.mapCpu, finish_eq] at h
    cases h
    exact ⟨s, .refl s, rfl⟩
  · obtain ⟨-, he⟩ := exec_of_plp hm
    simp only [he, plpForm, afterPull_eq, State.mapCpu, finish_eq] at h
    cases h
    exact ⟨s, .refl s, rfl⟩
  · obtain ⟨-, he⟩ := exec_of_rts hm
    simp only [he, rtsForm, afterPull_eq, State.mapCpu, finishJump_eq] at h
    cases h
    exact ⟨s, .refl s, rfl⟩
  · obtain ⟨-, he⟩ := exec_of_rti hm
    simp only [he, rtiForm, returnFromInterrupt, afterPull_eq, State.mapCpu, finishJump_eq] at h
    cases h
    exact ⟨s, .refl s, rfl⟩
  · obtain ⟨a, -, he⟩ | ⟨p, -, he⟩ := exec_of_jmp hm
    · cases (he s).symm.trans h
      exact ⟨s, .refl s, rfl⟩
    · rw [he, jmpIndForm] at h
      obtain ⟨u, h⟩ := Res.outcome_eq_next.1 h
      obtain ⟨w, s1, h1, h2⟩ := Res.bind_eq_ok.1 h
      cases h2
      exact ⟨s1, readJumpPointer_frame h1, rfl⟩

/-- An instruction that stores nothing does at most reads outside the CPU. -/
theorem exec_onlyReads (hn : storesNothing i = true) (h : exec i s = .next t) : OnlyReads s t := by
  have shape := rowShape_operand i
  have he := exec_eq_rowForm i s
  rw [storesNothing] at hn
  cases hm : i.mnemonic <;> rw [hm] at hn shape he
  case sta | stx | sty | sax | inc | dec | slo | rla | sre | rra | dcp | isc | pha | php | jsr | brk => cases hn
  case lda | ldx | ldy | lax | and | ora | eor | bit | adc | sbc | cmp | cpx | cpy | anc | alr | arr | axs =>
    cases ho : i.operand <;> rw [ho] at shape he
    case value o =>
      have hread : runRead i o (readEffect i.mnemonic) s = .next t := by rw [hm]; exact he.symm.trans h
      exact runRead_onlyReads hread
    all_goals cases shape
  case tax | tay | txa | tya | tsx | txs | inx | iny | dex | dey | clc | sec | cli | sei | cld | sed | clv =>
    cases ho : i.operand <;> rw [ho] at shape he
    case imp => exact runImplied_onlyReads (he.symm.trans h)
    all_goals cases shape
  case asl | lsr | rol | ror =>
    obtain ⟨o, ho, hmod⟩ := exec_eq_runModify (i := i) (by rw [hm]; decide)
    obtain rfl : o = .acc := Operand.value.inj (ho.symm.trans (eq_of_beq hn))
    exact runModify_acc_onlyReads ((hmod s).symm.trans h)
  case bcc | bcs | beq | bne | bmi | bpl | bvc | bvs =>
    cases ho : i.operand <;> rw [ho] at shape he
    case rel d => exact runBranch_onlyReads (he.symm.trans h)
    all_goals cases shape
  case nop =>
    cases ho : i.operand <;> rw [ho] at shape he
    case imp => exact runImplied_onlyReads (he.symm.trans h)
    case value o =>
      have hread : runRead i o (readEffect i.mnemonic) s = .next t := by rw [hm]; exact he.symm.trans h
      exact runRead_onlyReads hread
    all_goals cases shape
  case pla | plp | rts | rti | jmp => exact control_onlyReads (by rw [hm]; decide) h
  case jam | xaa | ahx | tas | shy | shx | lxa | las => cases he.symm.trans h

end

/-- Settles O32: such an instruction does at most reads, and a read leaves memory alone. -/
theorem frameOfInstructionsThatStoreNothing : Obligations.FrameOfInstructionsThatStoreNothing := by
  intro i s t hn h
  obtain ⟨s1, hr, ht⟩ := exec_onlyReads hn h
  rw [ht]
  refine ⟨hr.storedByte, ⟨fun a _ => hr.ppuPeek a, fun k => congrArg (Memory.read · k) hr.oam⟩, ?_⟩
  rw [← hr.ppu, ← hr.ctl]
  exact congrArg (fun u : State => { u with cpu := t.cpu, insCycles := t.insCycles }) hr.state

end Sys2Proof.Machine
end

section
/-! SUPPORT. What one store can change: the cell of its address, the PPU-space cell of PPUDATA, the OAM byte of OAMADDR, and
what lies behind a port or an I/O register; the proofs of O33 and O34. -/

namespace Sys2Proof.Machine

/-! ## One byte of the PPU space (20_memory.md R111 to R114) -/

/-- The byte a PPU-space cell holds; none past the CHR size (R112). -/
def ppuCellByte (s : State) (c : PpuCell) : Option Byte :=
  match c with
  | .chr i => if i < s.cart.chrSize then some (Memory.read s.cart.chr i) else none
  | .nt i => some (Memory.read s.ppu.nt i)
  | .pal i => some ((Cells.read 0 s.ppu.pal i).setWidth 8)

/-- The state with byte d in one PPU-space cell. -/
def State.setPpuCell (c : PpuCell) (d : Byte) (s : State) : State :=
  match c with
  | .chr i => s.mapCart fun c => { c with chr := Memory.write c.chr i d }
  | .nt i => s.mapPpu fun p => { p with nt := Memory.write p.nt i d }
  | .pal i => s.mapPpu fun p => { p with pal := Cells.write 0 p.pal i (d.setWidth 6) }

section
variable {s t : State} {a b : Nat} {d : Byte}

theorem ppuPeek_eq_ppuCellByte (s : State) (a : Nat) : ppuPeek s a = ppuCellByte s (ppuCellOf s a) := by
  unfold ppuPeek ppuCellOf
  split
  · rfl
  split <;> rfl

/-- Which cell a PPU address names depends on the mirroring alone. -/
theorem ppuCellOf_setPpuCell (c : PpuCell) (d : Byte) (s : State) (a : Nat) :
    ppuCellOf (s.setPpuCell c d) a = ppuCellOf s a := by
  cases c <;> rfl

theorem ppuCellByte_setPpuCell_other {c c' : PpuCell} (h : c' ≠ c) :
    ppuCellByte (s.setPpuCell c d) c' = ppuCellByte s c' := by
  cases c <;> cases c'
  case chr.chr i j =>
    have hread := Memory.read_write_other (m := s.cart.chr) d fun e => h (congrArg PpuCell.chr e)
    exact congrArg (fun v => if j < s.cart.chrSize then some v else none) hread
  case nt.nt i j => exact congrArg some (Memory.read_write_other d fun e => h (congrArg PpuCell.nt e))
  case pal.pal i j =>
    have hread := Cells.read_write_other (d := 0) (m := s.ppu.pal) (d.setWidth 6) fun e => h (congrArg PpuCell.pal e)
    exact congrArg (fun v => some (v.setWidth 8)) hread
  all_goals rfl

/-- A PPU-space write that completes sets the cell that the address names. -/
theorem ppuWrite_ok (h : ppuWrite a d s = .ok () t) : t = s.setPpuCell (ppuCellOf s a) d := by
  unfold ppuWrite at h
  split at h
  case isTrue low =>
    split at h
    · cases h
      rw [ppuCellOf, if_pos low]
      rfl
    · cases h
  case isFalse low =>
    rw [ppuCellOf, if_neg low]
    split at h
    · cases h
      rw [if_pos ‹_›]
      rfl
    · cases h
      rw [if_neg ‹_›]
      rfl

end

/-! ## What one store can change (40_addressing_modes.md R216, R217) -/

/-- All that a store at the address a can change, as the frames O33 and O34 state it. -/
structure StoreFrame (a : Word) (s t : State) : Prop where
  storage : ∀ b, cellOf s b ≠ cellOf s a → storedByte t b = storedByte s b
  ppuSpace : ∀ n,
    ¬(0x2000 ≤ a.toNat ∧ a.toNat < 0x4000 ∧ a.toNat % 8 = 7 ∧ ppuCellOf s n = ppuCellOf s s.ppu.dataAddr) →
    ppuPeek t n = ppuPeek s n
  oam : ∀ k, ¬(0x2000 ≤ a.toNat ∧ a.toNat < 0x4000 ∧ a.toNat % 8 = 4 ∧ k = s.ppu.oamaddr.toNat) →
    Memory.read t.ppu.oam k = Memory.read s.ppu.oam k
  ppu : ¬(0x2000 ≤ a.toNat ∧ a.toNat < 0x4000) → t.ppu = s.ppu
  io : ¬(0x4000 ≤ a.toNat ∧ a.toNat < 0x4018) → t.apu = s.apu ∧ t.bus = s.bus ∧ t.ctl = s.ctl

section
variable {s t : State} {a : Word} {d : Byte}

theorem StoreFrame.refl (a : Word) (s : State) : StoreFrame a s s :=
  ⟨fun _ _ => rfl, fun _ _ => rfl, fun _ _ => rfl, fun _ => rfl, fun _ => ⟨rfl, rfl, rfl⟩⟩

theorem busWrite_port (lo : 0x2000 ≤ a.toNat) (hi : a.toNat < 0x4000) : busWrite a d s = portWrite a d s := by
  rw [busWrite, if_neg (by omega), if_pos hi]

/-- Away from the ports and the I/O registers a store completes only in a storage cell (20_memory.md R107, R110). -/
theorem cellOf_of_busWrite (port : ¬(0x2000 ≤ a.toNat ∧ a.toNat < 0x4000)) (io : ¬(0x4000 ≤ a.toNat ∧ a.toNat < 0x4020))
    (h : busWrite a d s = .ok () t) : ∃ c, cellOf s a = some c := by
  unfold cellOf
  split
  · exact ⟨_, rfl⟩
  split
  · rw [busWrite_unmapped (by omega) ‹_›] at h
    cases h
  split
  · rw [busWrite_prgRam (by omega) ‹_›] at h
    split at h
    · exact ⟨_, if_pos ‹_›⟩
    · cases h
  · exact ⟨_, rfl⟩

/-- The ways a store that completes can go: through a PPU port, to an I/O register, nowhere, or into the storage cell of the
address (20_memory.md R104, R108). -/
theorem busWrite_cases (h : busWrite a d s = .ok () t) :
    ((0x2000 ≤ a.toNat ∧ a.toNat < 0x4000) ∧ portWrite a d s = .ok () t) ∨
    ((0x4000 ≤ a.toNat ∧ a.toNat < 0x4018) ∧ t = ioWrite (a.toNat - 0x4000) d s) ∨ t = s ∨
    ∃ c, cellOf s a = some c ∧ t = s.setCell c d := by
  by_cases port : 0x2000 ≤ a.toNat ∧ a.toNat < 0x4000
  · exact .inl ⟨port, (busWrite_port port.1 port.2).symm.trans h⟩
  by_cases io : 0x4000 ≤ a.toNat ∧ a.toNat < 0x4020
  · rw [busWrite_io io.1 io.2] at h
    have ht := (Res.ok.inj h).2.symm
    obtain register | unused := Nat.lt_or_ge a.toNat 0x4018
    · exact .inr (.inl ⟨⟨io.1, register⟩, ht⟩)
    · exact .inr (.inr (.inl (ht.trans (ioWrite_unused (by omega)))))
  · obtain ⟨c, hc⟩ := cellOf_of_busWrite port io h
    exact .inr (.inr (.inr ⟨c, hc, busWrite_stored hc h⟩))

/-- A storage cell is no part of the PPU or of the I/O registers. -/
theorem setCell_storeFrame {c : StoreCell} (hc : cellOf s a = some c) : StoreFrame a s (s.setCell c d) where
  storage b hb := by
    rw [storedByte, storedByte, cellOf_setCell]
    cases hb' : cellOf s b with
    | none => rfl
    | some c' =>
      have hne : c' ≠ c := fun e => hb (by rw [hb', hc, e])
      rw [Option.map_some, Option.map_some, cellByte_setCell_other hne]
  ppuSpace n _ := by cases c <;> rfl
  oam _ _ := by cases c <;> rfl
  ppu _ := by cases c <;> rfl
  io _ := by cases c <;> exact ⟨rfl, rfl, rfl⟩

/-- The I/O registers are the DMA kick, the controllers and the APU. -/
theorem ioWrite_storeFrame {r : Nat} (range : 0x4000 ≤ a.toNat ∧ a.toNat < 0x4018) : StoreFrame a s (ioWrite r d s) := by
  have keeps : ioWrite r d s =
      { s with bus := (ioWrite r d s).bus, ctl := (ioWrite r d s).ctl, apu := (ioWrite r d s).apu } := by
    unfold ioWrite
    split <;> rfl
  rw [keeps]
  exact ⟨fun _ _ => rfl, fun _ _ => rfl, fun _ _ => rfl, fun _ => rfl, fun h => absurd range h⟩

/-- PPUDATA sets the PPU-space cell of its address (45_ppu_registers.md R433). -/
theorem writeData_storeFrame (range : 0x2000 ≤ a.toNat ∧ a.toNat < 0x4000) (port : a.toNat % 8 = 7)
    (h : writeData d s = .ok () t) : StoreFrame a s t := by
  obtain ⟨u, s1, hw, ht⟩ := Res.bind_eq_ok.1 h
  obtain rfl := ppuWrite_ok hw
  cases ht
  refine ⟨fun b _ => ?_, fun n hn => ?_, fun _ _ => ?_, fun h => absurd range h, fun _ => ?_⟩
  · cases ppuCellOf s s.ppu.dataAddr <;> rfl
  · have other : ppuCellOf s n ≠ ppuCellOf s s.ppu.dataAddr := fun e => hn ⟨range.1, range.2, port, e⟩
    calc ppuPeek _ n = ppuPeek (s.setPpuCell (ppuCellOf s s.ppu.dataAddr) d) n := rfl
      _ = ppuPeek s n := by
        rw [ppuPeek_eq_ppuCellByte, ppuPeek_eq_ppuCellByte, ppuCellOf_setPpuCell, ppuCellByte_setPpuCell_other other]
  · cases ppuCellOf s s.ppu.dataAddr <;> rfl
  · cases ppuCellOf s s.ppu.dataAddr <;> exact ⟨rfl, rfl, rfl⟩

/-- OAMDATA sets the OAM byte at OAMADDR (R428). -/
theorem writeOamData_storeFrame (range : 0x2000 ≤ a.toNat ∧ a.toNat < 0x4000) (port : a.toNat % 8 = 4) :
    StoreFrame a s (s.mapPpu (Ppu.writeOamData d)) where
  storage _ _ := rfl
  ppuSpace _ _ := rfl
  oam _ hk := Memory.read_write_other d fun e => hk ⟨range.1, range.2, port, e⟩
  ppu h := absurd range h
  io _ := ⟨rfl, rfl, rfl⟩

/-- The other ports are registers of the PPU, outside its stores. -/
theorem ppuRegister_storeFrame (range : 0x2000 ≤ a.toNat ∧ a.toNat < 0x4000) {f : Ppu → Ppu}
    (hoam : (f s.ppu).oam = s.ppu.oam) (hnt : (f s.ppu).nt = s.ppu.nt) (hpal : (f s.ppu).pal = s.ppu.pal) : StoreFrame a s (s.mapPpu f) where
  storage _ _ := rfl
  ppuSpace n _ := ppuPeek_congr (s := s) (t := s.mapPpu f) rfl hnt hpal n
  oam k _ := congrArg (Memory.read · k) hoam
  ppu h := absurd range h
  io _ := ⟨rfl, rfl, rfl⟩

theorem portWrite_storeFrame (range : 0x2000 ≤ a.toNat ∧ a.toNat < 0x4000) (h : portWrite a d s = .ok () t) :
    StoreFrame a s t := by
  unfold portWrite at h
  split at h
  · split at h
    · cases h
    · cases h; exact ppuRegister_storeFrame range rfl rfl rfl
  · cases h; exact ppuRegister_storeFrame range rfl rfl rfl
  · cases h; exact .refl a s
  · cases h; exact ppuRegister_storeFrame range rfl rfl rfl
  · cases h; exact writeOamData_storeFrame range ‹_›
  · cases h
    refine ppuRegister_storeFrame range ?_ ?_ ?_ <;> rw [Ppu.writeScroll_frame]
  · cases h
    refine ppuRegister_storeFrame range ?_ ?_ ?_ <;> rw [Ppu.writeAddr_frame]
  · have port : a.toNat % 8 = 7 := by
      simp only [imp_false] at *
      omega
    exact writeData_storeFrame range port h

/-- A store that completes changes what its address names. -/
theorem busWrite_storeFrame (h : busWrite a d s = .ok () t) : StoreFrame a s t := by
  obtain ⟨range, hp⟩ | ⟨range, ht⟩ | rfl | ⟨c, hc, rfl⟩ := busWrite_cases h
  · exact portWrite_storeFrame range hp
  · rw [ht]
    exact ioWrite_storeFrame range
  · exact .refl a t
  · exact setCell_storeFrame hc

end

/-! ## What the read of a read-modify-write instruction leaves (40_addressing_modes.md R215) -/

section
variable {s t : State} {a : Word} {b : Byte}

/-- A read that completes goes through a PPU port, to an I/O register, or changes nothing (20_memory.md R104, R116). -/
theorem busRead_cases (h : busRead a s = .ok b t) :
    ((0x2000 ≤ a.toNat ∧ a.toNat < 0x4000) ∧ portRead a s = .ok b t) ∨
    ((0x4000 ≤ a.toNat ∧ a.toNat < 0x4020) ∧ ioRead (a.toNat - 0x4000) s = .ok b t) ∨ t = s := by
  by_cases port : 0x2000 ≤ a.toNat ∧ a.toNat < 0x4000
  · exact .inl ⟨port, (busRead_port port.1 port.2).symm.trans h⟩
  by_cases io : 0x4000 ≤ a.toNat ∧ a.toNat < 0x4020
  · exact .inr (.inl ⟨io, (busRead_io io.1 io.2).symm.trans h⟩)
  refine .inr (.inr ?_)
  unfold busRead at h
  split at h
  · exact (Res.ok.inj h).2.symm
  rw [if_neg (by omega), if_neg (by omega)] at h
  split at h
  · cases h
  split at h
  · split at h
    · exact (Res.ok.inj h).2.symm
    · cases h
  · exact (Res.ok.inj h).2.symm

/-- The ports are no part of the controllers. -/
theorem portRead_ctl (h : portRead a s = .ok b t) : t.ctl = s.ctl := by
  unfold portRead at h
  split at h
  · cases h; rfl
  · cases h; rfl
  · simp only [readData] at h
    split at h
    all_goals
      obtain ⟨b', s1, hread, ht⟩ := Res.bind_eq_ok.1 h
      obtain ⟨rfl, -⟩ := ppuRead_ok hread
      cases ht
      rfl
  · cases h

theorem ioRead_ppu {r : Nat} (h : ioRead r s = .ok b t) : t.ppu = s.ppu := by
  unfold ioRead at h
  split at h <;> (cases h; rfl)

theorem busRead_ppu (h : busRead a s = .ok b t) (range : ¬(0x2000 ≤ a.toNat ∧ a.toNat < 0x4000)) : t.ppu = s.ppu := by
  obtain ⟨port, -⟩ | ⟨-, hio⟩ | rfl := busRead_cases h
  · exact absurd port range
  · exact ioRead_ppu hio
  · rfl

theorem busRead_ctl (h : busRead a s = .ok b t) (range : ¬(0x4000 ≤ a.toNat ∧ a.toNat < 0x4018)) : t.ctl = s.ctl := by
  obtain ⟨-, hport⟩ | ⟨io, hio⟩ | rfl := busRead_cases h
  · exact portRead_ctl hport
  · rw [ioRead_drawn (by omega) (by omega) (by omega)] at hio
    cases hio
    rfl
  · rfl

end

/-! ## The instructions that store at an effective address -/

section
variable {i : Instr} {m : MemOperand} {s t : State} {e : Word × Bool}

/-- The stores have the shape of a store. -/
theorem exec_eq_runStore (h : storesValue i = true) :
    ∃ m, i.operand = .value (.mem m) ∧ ∀ s, exec i s = runStore i m (storeValue i.mnemonic) s := by
  unfold storesValue at h
  split at h
  case h_1 hm => obtain ⟨m, ho, he⟩ := exec_of_sta hm; exact ⟨m, ho, by rw [hm]; exact he⟩
  case h_2 hm => obtain ⟨m, ho, he⟩ := exec_of_stx hm; exact ⟨m, ho, by rw [hm]; exact he⟩
  case h_3 hm => obtain ⟨m, ho, he⟩ := exec_of_sty hm; exact ⟨m, ho, by rw [hm]; exact he⟩
  case h_4 hm => obtain ⟨m, ho, he⟩ := exec_of_sax hm; exact ⟨m, ho, by rw [hm]; exact he⟩
  case h_5 => cases h

/-- A store that completes is one write at the effective address, and PC moves on. -/
theorem exec_store_next (hs : storesValue i = true) (ho : i.operand = .value (.mem m)) (he : fetchAddress m s = .ok e s)
    (h : exec i s = .next t) : ∃ v s1, busWrite e.1 v s = .ok () s1 ∧ t = finish i e.2 s1 := by
  obtain ⟨m', ho', hexec⟩ := exec_eq_runStore hs
  obtain rfl : m' = m := ValueOperand.mem.inj (Operand.value.inj (ho'.symm.trans ho))
  obtain ⟨e', s1, he', hw, ht⟩ := runStore_next ((hexec s).symm.trans h)
  obtain rfl : e' = e := (Res.ok.inj (he'.symm.trans he)).1
  exact ⟨_, s1, hw, ht⟩

theorem mnemonic_of_modifiesMemory (h : modifiesMemory i = true) :
    i.mnemonic ∈ [.inc, .dec, .asl, .lsr, .rol, .ror, .slo, .rla, .sre, .rra, .dcp, .isc] := by
  unfold modifiesMemory at h
  split at h
  case h_13 => cases h
  all_goals
    rename_i hm
    rw [hm]
    decide

/-- A read-modify-write instruction on memory that completes is one write at the effective address after the one read there; the
registers change by the mnemonic's rule, and PC moves on. -/
theorem exec_modify_next {s1 : State} {v : Byte} (hmod : modifiesMemory i = true) (ho : i.operand = .value (.mem m))
    (he : fetchAddress m s = .ok e s) (hr : busRead e.1 s = .ok v s1) (h : exec i s = .next t) :
    ∃ r s2, busWrite e.1 r s1 = .ok () s2 ∧
      t = finish i e.2 (s2.mapCpu fun c => modifyAfter i.mnemonic r (modifyBefore i.mnemonic v c)) := by
  obtain ⟨o, ho', hexec⟩ := exec_eq_runModify (mnemonic_of_modifiesMemory hmod)
  obtain rfl : o = .mem m := Operand.value.inj (ho'.symm.trans ho)
  obtain ⟨r, s1', s2, hv, hw, ht⟩ := runModify_next ((hexec s).symm.trans h)
  rw [fetchValue_mem he, hr, Res.bind_ok] at hv
  cases hv
  obtain ⟨s3, hw', rfl⟩ := busWrite_of_mapCpu hw
  exact ⟨_, s3, hw', ht⟩

theorem modifyBefore_sp_pc (n : Mnemonic) (v : Byte) (c : Cpu) :
    (modifyBefore n v c).sp = c.sp ∧ (modifyBefore n v c).pc = c.pc := by
  cases n <;> exact ⟨rfl, rfl⟩

theorem modifyAfter_sp_pc (n : Mnemonic) (r : Byte) (c : Cpu) :
    (modifyAfter n r c).sp = c.sp ∧ (modifyAfter n r c).pc = c.pc := by
  cases n <;> exact ⟨rfl, rfl⟩

end

/-! ## The statements -/

/-- Settles O33: the instruction is one store from the state before. -/
theorem frameOfStores : Obligations.FrameOfStores := by
  intro i m s t e hs ho he h ea
  obtain ⟨v, s1, hw, rfl⟩ := exec_store_next hs ho he h
  have store := busWrite_storeFrame hw
  have write := busWrite_frame hw
  refine ⟨store.storage, fun a _ => store.ppuSpace a, store.oam, store.ppu, store.io, write.emu, write.params, ?_⟩
  rw [finish_eq, write.cpu]

/-- Settles O34: the instruction is one store from the state after its read. -/
theorem frameOfModifications : Obligations.FrameOfModifications := by
  intro i m s s1 t e v hmod ho he hr h ea
  obtain ⟨r, s2, hw, rfl⟩ := exec_modify_next hmod ho he hr h
  have read := busRead_frame hr
  have store := busWrite_storeFrame hw
  have write := busWrite_frame hw
  have cpu : s2.cpu = s.cpu := write.cpu.trans read.cpu
  obtain ⟨spBefore, pcBefore⟩ := modifyBefore_sp_pc i.mnemonic v s2.cpu
  obtain ⟨spAfter, pcAfter⟩ := modifyAfter_sp_pc i.mnemonic r (modifyBefore i.mnemonic v s2.cpu)
  refine ⟨fun a ha => ?_, fun a _ ha => (store.ppuSpace a ha).trans (read.ppuPeek a),
    fun k hk => (store.oam k hk).trans (congrArg (Memory.read · k) read.oam),
    fun hp => (store.ppu hp).trans (busRead_ppu hr hp), fun hio => ?_, write.emu.trans read.emu,
    write.params.trans read.params, ?_, ?_⟩
  · rw [← read.cellOf, ← read.cellOf] at ha
    exact (store.storage a ha).trans (read.storedByte a)
  · obtain ⟨apu, bus, ctl⟩ := store.io hio
    exact ⟨apu.trans read.apu, bus.trans read.bus, ctl.trans (busRead_ctl hr hio)⟩
  · rw [finish_eq, State.mapCpu_cpu, spAfter, spBefore, cpu]
  · rw [finish_eq, State.mapCpu_cpu, pcAfter, pcBefore, cpu]

end Sys2Proof.Machine
end

section
/-! SUPPORT. The instruction rules of Safety.lean, each from the shape of the mnemonic's meaning and the rows of its opcodes; the
loads, stores, transfers and counts are instances: the proofs of O11, O17 and O18. -/

namespace Sys2Proof.Machine

variable {m : Mnemonic}

/-! ## From the shape of a meaning to its rule -/

/-- A completed read with a rule that leaves PC alone: the registers by the rule, PC and cycles by the row. -/
theorem runRead_eq_next {i : Instr} {o : ValueOperand} {after : Byte → Cpu → Cpu} {s s1 : State} {r : Fetched}
    (hpc : ∀ v c, (after v c).pc = c.pc) (h : fetchValue o s = .ok r s1) :
    runRead i o after s = .next { s1 with
      cpu := { after r.value s.cpu with pc := s.cpu.pc + BitVec.ofNat 16 i.length }
      insCycles := i.row.baseCycles + crossCycle i r.cross } := by
  rw [runRead_ok h, finish_eq, State.mapCpu_cpu, (fetchValue_frame h).cpu, hpc]
  rfl

/-- A mnemonic whose rows are these and whose meaning is the reading shape obeys `ReadRule`. -/
theorem readRule_of_runRead {rows : List (Byte × Mode)} {after : Byte → Cpu → Cpu}
    (hrows : ∀ op, (decodeOp op 0 0).row.mnemonic = m ↔
      ((decodeOp op 0 0).row.opcode, (decodeOp op 0 0).row.mode) ∈ rows)
    (hpc : ∀ v c, (after v c).pc = c.pc)
    (hexec : ∀ i : Instr, i.mnemonic = m → ∃ o, i.operand = .value o ∧ ∀ s, exec i s = runRead i o after s) :
    ReadRule m rows after := by
  intro i
  refine ⟨forall_row (P := fun r => r.mnemonic = m ↔ (r.opcode, r.mode) ∈ rows) hrows i, fun hm => ?_⟩
  obtain ⟨o, ho, he⟩ := hexec i hm
  refine ⟨o, ho, fun s => ⟨fun readable => ?_, fun unreadable => ?_⟩⟩
  · obtain ⟨r, s1, hr⟩ := (fetchValue_completes o s).2 readable
    exact ⟨r, s1, hr, (he s).trans (runRead_eq_next hpc hr)⟩
  · obtain ⟨f, hf⟩ := fetchValue_faults unreadable
    exact ⟨f, hf, (he s).trans (runRead_fault hf)⟩

/-- A mnemonic whose rows are these, none with the page-cross cycle, and whose meaning is the storing shape obeys `StoreRule`. -/
theorem storeRule_of_runStore {rows : List (Byte × Mode)} {value : Cpu → Byte}
    (hrows : ∀ op, (decodeOp op 0 0).row.mnemonic = m ↔
      ((decodeOp op 0 0).row.opcode, (decodeOp op 0 0).row.mode) ∈ rows)
    (hcross : addsCross m = false)
    (hexec : ∀ i : Instr, i.mnemonic = m → ∃ o, i.operand = .value (.mem o) ∧ ∀ s, exec i s = runStore i o value s) :
    StoreRule m rows value := by
  intro i
  refine ⟨forall_row (P := fun r => r.mnemonic = m ↔ (r.opcode, r.mode) ∈ rows) hrows i, fun hm => ?_⟩
  obtain ⟨o, ho, he⟩ := hexec i hm
  refine ⟨o, ho, fun s => ?_⟩
  obtain ⟨e, hea⟩ := fetchAddress_ok o s
  refine ⟨e, hea, fun completes => ?_, fun faults => ?_⟩
  · obtain ⟨s1, hw⟩ := (busWrite_completes e.1 (value s.cpu) s).2 completes
    refine ⟨s1, hw, ?_⟩
    rw [he, runStore_ok hea hw, finish_eq, (busWrite_frame hw).cpu, crossCycle_eq_zero (pageCross_false (hm ▸ hcross)),
      Nat.add_zero]
  · obtain ⟨f, hf⟩ := busWrite_faults faults
    exact ⟨f, hf, (he s).trans (runStore_fault hea hf)⟩

/-- The end of an implied instruction: one byte, the base cycles (30_encoding.md R161, R165). -/
theorem finish_implied {i : Instr} (hmode : i.row.mode = .imp) (s : State) :
    finish i false s = { s with cpu := { s.cpu with pc := s.cpu.pc + 1 }, insCycles := i.row.baseCycles } := by
  rw [finish_eq, Instr.length, hmode, crossCycle, Bool.and_false]
  rfl

/-- A mnemonic whose one row is this and whose meaning is the implied shape obeys `ImpliedRule`. -/
theorem impliedRule_of_runImplied {opcode : Byte} {cycles : Nat} {after : Cpu → Cpu}
    (hrow : ∀ op, ((decodeOp op 0 0).row.mnemonic = m ↔
        ((decodeOp op 0 0).row.opcode, (decodeOp op 0 0).row.mode) = (opcode, .imp)) ∧
      ((decodeOp op 0 0).row.mnemonic = m → (decodeOp op 0 0).row.baseCycles = cycles))
    (hpc : ∀ c, (after c).pc = c.pc)
    (hexec : ∀ i : Instr, i.mnemonic = m → i.operand = .imp ∧ ∀ s, exec i s = runImplied i after s) :
    ImpliedRule m opcode cycles after := by
  intro i
  obtain ⟨row_iff, hcycles⟩ := forall_row (P := fun r =>
    (r.mnemonic = m ↔ (r.opcode, r.mode) = (opcode, .imp)) ∧ (r.mnemonic = m → r.baseCycles = cycles)) hrow i
  refine ⟨row_iff, fun hm s => ?_⟩
  obtain ⟨-, hmode⟩ := Prod.mk.inj (row_iff.1 hm)
  rw [(hexec i hm).2, runImplied_eq, finish_implied hmode, State.mapCpu_cpu, hpc, hcycles hm]
  rfl

/-! ## The statements -/

/-- Settles O11: the four loads are reads, each with its rows. -/
theorem loadRules : Obligations.LoadRules :=
  ⟨readRule_of_runRead (by decide) (fun _ _ => rfl) fun _ => exec_of_lda,
    readRule_of_runRead (by decide) (fun _ _ => rfl) fun _ => exec_of_ldx,
    readRule_of_runRead (by decide) (fun _ _ => rfl) fun _ => exec_of_ldy,
    readRule_of_runRead (by decide) (fun _ _ => rfl) fun _ => exec_of_lax⟩

/-- Settles O17: the four stores write at the effective address, and none of their rows has the page-cross cycle. -/
theorem storeRules : Obligations.StoreRules :=
  ⟨storeRule_of_runStore (by decide) rfl fun _ => exec_of_sta, storeRule_of_runStore (by decide) rfl fun _ => exec_of_stx,
    storeRule_of_runStore (by decide) rfl fun _ => exec_of_sty, storeRule_of_runStore (by decide) rfl fun _ => exec_of_sax⟩

/-- Settles O18: the ten mnemonics work on the registers alone, each with its one row. -/
theorem transferAndCountRules : Obligations.TransferAndCountRules :=
  ⟨impliedRule_of_runImplied (by decide) (fun _ => rfl) fun _ => exec_of_tax,
    impliedRule_of_runImplied (by decide) (fun _ => rfl) fun _ => exec_of_tay,
    impliedRule_of_runImplied (by decide) (fun _ => rfl) fun _ => exec_of_txa,
    impliedRule_of_runImplied (by decide) (fun _ => rfl) fun _ => exec_of_tya,
    impliedRule_of_runImplied (by decide) (fun _ => rfl) fun _ => exec_of_tsx,
    impliedRule_of_runImplied (by decide) (fun _ => rfl) fun _ => exec_of_txs,
    impliedRule_of_runImplied (by decide) (fun _ => rfl) fun _ => exec_of_inx,
    impliedRule_of_runImplied (by decide) (fun _ => rfl) fun _ => exec_of_iny,
    impliedRule_of_runImplied (by decide) (fun _ => rfl) fun _ => exec_of_dex,
    impliedRule_of_runImplied (by decide) (fun _ => rfl) fun _ => exec_of_dey⟩

end Sys2Proof.Machine
end

section
/-! SUPPORT. The stack instructions (41_load_store_transfer.md R242 to R245, R250, R251) and the frame of every instruction that
pushes: the proofs of O19 and O35. -/

namespace Sys2Proof.Machine

/-! ## Pulled and pushed bytes -/

/-- The byte that a pull returns lies in page 1 of work RAM, above SP (R251). -/
theorem pulled_eq (s : State) : pulled s = Memory.read s.wram (0x100 + (s.cpu.sp + 1).toNat) := by
  rw [pulled, wramRead, wramIndex_stackAddr]

/-- The status byte that PHP and BRK push: bits 5 and 4 set (10_state.md R36). -/
theorem pushedP_true (c : Cpu) : c.pushedP true =
    BitVec.ofBool c.n ++ BitVec.ofBool c.v ++ 0b11#2 ++ BitVec.ofBool c.d ++ BitVec.ofBool c.i ++ BitVec.ofBool c.z ++
      BitVec.ofBool c.c := by
  have bits54 : ∀ nv : BitVec 2, nv ++ BitVec.ofBool true ++ BitVec.ofBool true = nv ++ 0b11#2 := by decide
  exact congrArg (fun high : BitVec 4 => high ++ BitVec.ofBool c.d ++ BitVec.ofBool c.i ++ BitVec.ofBool c.z ++
    BitVec.ofBool c.c) (bits54 _)

/-- The end of an implied instruction whose row is this. -/
theorem finish_of_row {i : Instr} {opcode : Byte} {cycles : Nat}
    (hrow : (i.row.opcode, i.row.mode, i.row.baseCycles) = (opcode, .imp, cycles)) (s : State) :
    finish i false s = { s with cpu := { s.cpu with pc := s.cpu.pc + 1 }, insCycles := cycles } := by
  obtain ⟨-, hrest⟩ := Prod.mk.inj hrow
  obtain ⟨hmode, hcycles⟩ := Prod.mk.inj hrest
  rw [finish_implied hmode, hcycles]

/-- Settles O19: one push or one pull of each, in page 1, and the end of an implied instruction. -/
theorem stackInstructionRules : Obligations.StackInstructionRules := by
  have rows := forall_row (P := fun r =>
      (r.mnemonic = .pha ↔ (r.opcode, r.mode, r.baseCycles) = (0x48, .imp, 3)) ∧
      (r.mnemonic = .php ↔ (r.opcode, r.mode, r.baseCycles) = (0x08, .imp, 3)) ∧
      (r.mnemonic = .pla ↔ (r.opcode, r.mode, r.baseCycles) = (0x68, .imp, 4)) ∧
      (r.mnemonic = .plp ↔ (r.opcode, r.mode, r.baseCycles) = (0x28, .imp, 4))) (by decide)
  refine ⟨rows, fun i s hm => ?pha, fun i s hm => ?php, fun i s hm => ?pla, fun i s hm => ?plp⟩ <;>
    obtain ⟨pha, php, pla, plp⟩ := rows i
  case pha =>
    rw [(exec_of_pha hm).2, phaForm, finish_of_row (pha.1 hm), push_eq]
  case php =>
    rw [(exec_of_php hm).2, phpForm, finish_of_row (php.1 hm), push_eq, pushedP_true]
  case pla =>
    rw [(exec_of_pla hm).2, plaForm, finish_of_row (pla.1 hm), pulled_eq]
    rfl
  case plp =>
    rw [(exec_of_plp hm).2, plpForm, finish_of_row (plp.1 hm), pulled_eq]
    rfl

/-! ## What the instructions that push leave alone -/

/-- A byte of work RAM that is in none of the slots pushed to reads as before. -/
theorem read_pushes_other {l : List (Byte × Byte)} {m : Memory} {k : Nat}
    (h : ∀ sp ∈ l.map Prod.fst, k ≠ 0x100 + sp.toNat) : Memory.read (pushes l m) k = Memory.read m k := by
  induction l generalizing m with
  | nil => rfl
  | cons e l ih =>
    rw [List.map_cons, List.forall_mem_cons] at h
    obtain ⟨head, tail⟩ := h
    exact (ih tail).trans (Memory.read_write_other e.2 head)

/-- The stack pointers of n pushes from sp: sp and downwards, modulo 256 (R250). -/
def pushSlots (sp : Byte) (n : Nat) : List Byte :=
  match n with
  | 0 => []
  | n + 1 => sp :: pushSlots (sp - 1) n

/-- The k-th push from sp is at sp − k. -/
theorem mem_pushSlots {sp sp' : Byte} {n : Nat} (h : sp' ∈ pushSlots sp n) : ∃ k, k < n ∧ sp' = sp - BitVec.ofNat 8 k := by
  induction n generalizing sp with
  | zero => cases h
  | succ n ih =>
    obtain rfl | tail := List.mem_cons.1 h
    · exact ⟨0, Nat.succ_pos n, (BitVec.sub_zero _).symm⟩
    · obtain ⟨k, hk, rfl⟩ := ih tail
      exact ⟨k + 1, Nat.succ_lt_succ hk, by bv_omega⟩

/-- Outside the CPU registers and the returned cycles, t is s with n bytes pushed. -/
def Pushed (n : Nat) (s t : State) : Prop :=
  ∃ l : List (Byte × Byte), l.map Prod.fst = pushSlots s.cpu.sp n ∧ t.cpu.sp = s.cpu.sp - BitVec.ofNat 8 n ∧
    t = { s with cpu := t.cpu, wram := pushes l s.wram, insCycles := t.insCycles }

/-- BRK pushes three bytes where it is taken (R346). -/
theorem pushCount_brk {i : Instr} (hm : i.mnemonic = .brk) (s : State) :
    pushCount i s = if IntKind.brk.suppressed s.cpu then 0 else 3 := by
  rw [pushCount, hm]
  rfl

/-- What PHA, PHP, JSR and BRK do outside the CPU is their pushes. -/
theorem exec_pushed {i : Instr} {s t : State} (hm : i.mnemonic ∈ [.pha, .php, .jsr, .brk]) (h : exec i s = .next t) :
    Pushed (pushCount i s) s t := by
  simp only [List.mem_cons, List.not_mem_nil, or_false] at hm
  rcases hm with hm | hm | hm | hm
  · rw [(exec_of_pha hm).2, phaForm, push_eq, finish_eq] at h
    cases h
    rw [pushCount, hm]
    exact ⟨[(s.cpu.sp, s.cpu.a)], rfl, rfl, rfl⟩
  · rw [(exec_of_php hm).2, phpForm, push_eq, finish_eq] at h
    cases h
    rw [pushCount, hm]
    exact ⟨[(s.cpu.sp, s.cpu.pushedP true)], rfl, rfl, rfl⟩
  · obtain ⟨a, -, he⟩ := exec_of_jsr hm
    rw [he, jsrForm, pushWord_eq, finishJump_eq] at h
    cases h
    rw [pushCount, hm]
    exact ⟨[(s.cpu.sp, hiByte (s.cpu.pc + 2)), (s.cpu.sp - 1, loByte (s.cpu.pc + 2))], rfl, sub_sub _ _ _, rfl⟩
  · rw [(exec_of_brk hm).2, brkForm, interrupt_eq, finish_eq, finishJump_eq] at h
    rw [pushCount_brk hm]
    split at h
    case isTrue suppressed =>
      cases h
      rw [if_pos suppressed]
      exact ⟨[], rfl, (BitVec.sub_zero _).symm, rfl⟩
    case isFalse taken =>
      cases h
      rw [if_neg taken]
      exact ⟨_, rfl, by simp [sub_sub], rfl⟩

/-- The bytes pushed are the only storage that differs. -/
theorem Pushed.storedByte {n : Nat} {s t : State} {a : Word} (h : Pushed n s t)
    (ha : ∀ k, k < n → cellOf s a ≠ some (.wram (0x100 + (s.cpu.sp - BitVec.ofNat 8 k).toNat))) :
    storedByte t a = storedByte s a := by
  obtain ⟨l, slots, -, ht⟩ := h
  have cell : cellOf t a = cellOf s a := by rw [ht]; rfl
  rw [Machine.storedByte, Machine.storedByte, cell]
  cases hc : cellOf s a with
  | none => rfl
  | some c =>
    rw [ht]
    cases c with
    | prgRam j => rfl
    | prg j => rfl
    | wram j =>
      refine congrArg some (read_pushes_other fun sp hsp hj => ?_)
      obtain ⟨k, hk, rfl⟩ := mem_pushSlots (slots ▸ hsp)
      exact ha k hk (by rw [hc, hj])

/-- Settles O35: the instruction is its pushes. -/
theorem frameOfPushes : Obligations.FrameOfPushes := by
  intro i s t hm h
  have pushed := exec_pushed hm h
  refine ⟨fun a ha => pushed.storedByte ha, ?_⟩
  obtain ⟨l, -, hsp, ht⟩ := pushed
  exact ⟨hsp, ht ▸ rfl⟩

end Sys2Proof.Machine
end

section
/-! SUPPORT. Arithmetic, logic, compares, memory increments and shifts (42_arithmetic_logic.md): the model's flags and shifts as
the rules write them, subtraction as integers, and the shape of the read-modify-write rules; the proofs of O12 to O15, O20
and O21. -/

namespace Sys2Proof.Machine

/-! ## The rules' formulas (42_arithmetic_logic.md R270, R287 to R290) -/

/-- A byte masked to its sign bit is not 0 exactly where the sign bit is set. -/
theorem and_80_ne_zero : ∀ b : Byte, ((b &&& 0x80) != 0) = b.getLsbD 7 := by
  decide

/-- R270 masks the sign bit for V; the model reads it. -/
theorem ruleAddCore_eq (m : Byte) (c : Cpu) : ruleAddCore m c = c.addCore m := by
  rw [ruleAddCore]
  simp only [and_80_ne_zero]
  rfl

/-- A left shift is the doubled byte with the bit shifted in as bit 0 (R289). -/
theorem shiftLeft_eq : ∀ (v : Byte) (b : Bool), shiftLeft v b = (v <<< 1) ||| (BitVec.ofBool b).setWidth 8 := by
  decide

/-- A right shift is the halved byte with the bit shifted in as bit 7 (R290). -/
theorem shiftRight_eq : ∀ (v : Byte) (b : Bool), shiftRight v b = (v >>> 1) ||| ((BitVec.ofBool b).setWidth 8 <<< 7) := by
  decide

/-- ASL shifts a 0 in (R287). -/
theorem shiftLeft_false (v : Byte) : shiftLeft v false = v <<< 1 := by
  rw [shiftLeft_eq]
  exact BitVec.or_zero

/-- LSR shifts a 0 in (R288). -/
theorem shiftRight_false (v : Byte) : shiftRight v false = v >>> 1 := by
  rw [shiftRight_eq]
  exact BitVec.or_zero

/-! ## Reads -/

/-- Settles O12: the four mnemonics are reads, each with its rows. -/
theorem logicRules : Obligations.LogicRules :=
  ⟨readRule_of_runRead (by decide) (fun _ _ => rfl) fun _ => exec_of_and,
    readRule_of_runRead (by decide) (fun _ _ => rfl) fun _ => exec_of_ora,
    readRule_of_runRead (by decide) (fun _ _ => rfl) fun _ => exec_of_eor,
    readRule_of_runRead (by decide) (fun _ _ => rfl) fun _ => exec_of_bit⟩

/-- Settles O13: both mnemonics are reads that add, SBC the complement. -/
theorem addSubtractRules : Obligations.AddSubtractRules := by
  simp only [Obligations.AddSubtractRules, ruleAddCore_eq]
  exact ⟨readRule_of_runRead (by decide) (fun _ _ => rfl) fun _ => exec_of_adc,
    readRule_of_runRead (by decide) (fun _ _ => rfl) fun _ => exec_of_sbc⟩

/-- Settles O15: the three compares are reads, each with its rows. -/
theorem compareRules : Obligations.CompareRules :=
  ⟨readRule_of_runRead (by decide) (fun _ _ => rfl) fun _ => exec_of_cmp,
    readRule_of_runRead (by decide) (fun _ _ => rfl) fun _ => exec_of_cpx,
    readRule_of_runRead (by decide) (fun _ _ => rfl) fun _ => exec_of_cpy⟩

/-! ## Subtraction as integers (R272) -/

/-- The sign bit is that of the signed value. -/
theorem getLsbD_7_iff (b : Byte) : b.getLsbD 7 = true ↔ b.toInt < 0 := by
  rw [← decide_eq_true_iff (p := b.toInt < 0), ← BitVec.msb_eq_toInt]
  rfl

/-- V by signs: the operands have one sign and the result the other (R270). -/
theorem addOverflow_iff_signs (a m r : Byte) :
    addOverflow a m r = true ↔ (a.toInt < 0 ↔ m.toInt < 0) ∧ ¬(a.toInt < 0 ↔ r.toInt < 0) := by
  simp only [← getLsbD_7_iff]
  simp [addOverflow]

/-- The result is the signed sum, wrapped into a signed byte. -/
theorem toInt_addSum (a m : Byte) (b : Bool) :
    (BitVec.ofNat 8 (addSum a m b)).toInt = (a.toInt + m.toInt + b.toNat).bmod 256 := by
  rw [BitVec.toInt_ofNat', addSum, a.toInt_eq_toNat_cond, m.toInt_eq_toNat_cond, Int.bmod_def, Int.bmod_def]
  omega

/-- V is set exactly where the signed sum is no signed byte. -/
theorem addOverflow_iff (a m : Byte) (b : Bool) : addOverflow a m (BitVec.ofNat 8 (addSum a m b)) = true ↔
    a.toInt + m.toInt + b.toNat < -128 ∨ 127 < a.toInt + m.toInt + b.toNat := by
  have la : -128 ≤ a.toInt := a.le_toInt
  have ua : a.toInt < 128 := a.toInt_lt
  have lm : -128 ≤ m.toInt := m.le_toInt
  have um : m.toInt < 128 := m.toInt_lt
  have carry : b.toNat ≤ 1 := b.toNat_le
  rw [addOverflow_iff_signs, toInt_addSum, Int.bmod_def]
  omega

/-- The exclusive or of SBC is the complement. -/
theorem xor_FF (v : Byte) : v ^^^ 0xFF = ~~~v := BitVec.xor_allOnes

/-- The complement's signed value. -/
theorem toInt_xor_FF (v : Byte) : (v ^^^ 0xFF).toInt = -v.toInt - 1 := by
  rw [xor_FF, BitVec.toInt_not, v.toInt_eq_toNat_cond, Int.bmod_def]
  omega

/-- The complement's unsigned value. -/
theorem toNat_xor_FF (v : Byte) : (v ^^^ 0xFF).toNat = 255 - v.toNat := by
  rw [xor_FF, BitVec.toNat_not]

/-- C as the borrow not taken: 1 − C is what a subtraction takes off. -/
theorem toNat_eq_borrow (b : Bool) : (b.toNat : Int) = 1 - if b then 0 else 1 := by
  cases b <;> rfl

/-- The sum with the complement is the difference, 256 too high. -/
theorem addSum_xor_FF (a v : Byte) (b : Bool) :
    (addSum a (v ^^^ 0xFF) b : Int) = (a.toNat - v.toNat - if b then 0 else 1) + 256 := by
  have hv := v.isLt
  have hb := toNat_eq_borrow b
  rw [addSum, toNat_xor_FF]
  omega

/-- Settles O14: the sum with the complement is the difference, whose carry is read off 256 higher. -/
theorem subtractionAsIntegers : Obligations.SubtractionAsIntegers := by
  intro v c borrow u w r
  have sum : (addSum c.a (v ^^^ 0xFF) c.c : Int) = u + 256 := addSum_xor_FF c.a v c.c
  refine ⟨?a, ?c, ?v, getLsbD_7_iff r.a, beq_iff_eq, fun b => rfl⟩
  case a =>
    calc r.a = BitVec.ofInt 8 (addSum c.a (v ^^^ 0xFF) c.c) := (BitVec.ofInt_natCast 8 _).symm
      _ = BitVec.ofInt 8 u + BitVec.ofInt 8 256 := by rw [sum, BitVec.ofInt_add]
      _ = BitVec.ofInt 8 u := BitVec.add_zero _
  case c =>
    have carry : r.c = true ↔ 255 < addSum c.a (v ^^^ 0xFF) c.c := decide_eq_true_iff
    rw [carry]
    omega
  case v =>
    have overflow : r.v = true ↔ _ := addOverflow_iff c.a (v ^^^ 0xFF) c.c
    have difference : c.a.toInt + (v ^^^ 0xFF).toInt + c.c.toNat = w := by
      rw [toInt_xor_FF, toNat_eq_borrow]
      omega
    rwa [difference] at overflow

/-! ## Read-modify-write -/

section
variable {i : Instr} {result : Byte → Cpu → Byte} {before after : Byte → Cpu → Cpu} {s : State}

/-- The accumulator form always completes (40_addressing_modes.md R216). -/
theorem runModify_acc_eq_next (hbefore : ∀ v c, (before v c).pc = c.pc) (hafter : ∀ r c, (after r c).pc = c.pc)
    (hcross : i.row.pageCross = false) :
    runModify i .acc result before after s = .next { s with
      cpu := { after (result s.cpu.a s.cpu) { before s.cpu.a s.cpu with a := result s.cpu.a s.cpu } with
        pc := s.cpu.pc + BitVec.ofNat 16 i.length }
      insCycles := i.row.baseCycles } := by
  have h : fetchValue .acc s = .ok ⟨s.cpu.a, false, .acc⟩ s := rfl
  rw [runModify_ok h rfl, finish_eq, crossCycle_eq_zero hcross]
  simp only [State.mapCpu, hbefore, hafter, Nat.add_zero]

/-- A memory operand whose one read completes. -/
theorem fetchValue_mem_ok {m : MemOperand} {e : Word × Bool} {v : Byte} {s1 : State} (he : fetchAddress m s = .ok e s)
    (hr : busRead e.1 s = .ok v s1) : fetchValue (.mem m) s = .ok ⟨v, e.2, .mem e.1⟩ s1 := by
  rw [fetchValue_mem he, hr, Res.bind_ok]

/-- A memory form whose read and write complete (R215): the write does not depend on the registers. -/
theorem runModify_mem_eq_next {m : MemOperand} {e : Word × Bool} {v : Byte} {s1 s2 : State}
    (hbefore : ∀ v c, (before v c).pc = c.pc) (hafter : ∀ r c, (after r c).pc = c.pc)
    (hcross : i.row.pageCross = false) (he : fetchAddress m s = .ok e s) (hr : busRead e.1 s = .ok v s1)
    (hw : busWrite e.1 (result v s.cpu) s1 = .ok () s2) :
    runModify i (.mem m) result before after s = .next { s2 with
      cpu := { after (result v s.cpu) (before v s.cpu) with pc := s.cpu.pc + BitVec.ofNat 16 i.length }
      insCycles := i.row.baseCycles } := by
  have cpu1 : s1.cpu = s.cpu := (busRead_frame hr).cpu
  have cpu2 : s2.cpu = s.cpu := (busWrite_frame hw).cpu.trans cpu1
  rw [← cpu1] at hw
  rw [runModify_ok (fetchValue_mem_ok he hr) (busWrite_mapCpu _ hw), finish_eq, crossCycle_eq_zero hcross]
  simp only [State.mapCpu, cpu1, cpu2, hbefore, hafter, Nat.add_zero]

/-- A memory form whose write faults: the fault holds the registers as they are at the write. -/
theorem runModify_mem_writeFault {m : MemOperand} {e : Word × Bool} {v : Byte} {s1 : State} {f : Fault}
    (he : fetchAddress m s = .ok e s) (hr : busRead e.1 s = .ok v s1)
    (hw : busWrite e.1 (result v s.cpu) { s1 with cpu := before v s.cpu } = .fault f) :
    runModify i (.mem m) result before after s = .fault f := by
  rw [← (busRead_frame hr).cpu] at hw
  exact runModify_writeFault (fetchValue_mem_ok he hr) hw

end

/-- A mnemonic whose rows are these, none immediate and none with the page-cross cycle, and whose meaning is the
read-modify-write shape obeys `ModifyRule`; the rule may write the result in its own way. -/
theorem modifyRule_of_runModify {m : Mnemonic} {rows : List (Byte × Mode)} {result result' : Byte → Cpu → Byte}
    {before after : Byte → Cpu → Cpu}
    (hrows : ∀ op, (decodeOp op 0 0).row.mnemonic = m ↔
      ((decodeOp op 0 0).row.opcode, (decodeOp op 0 0).row.mode) ∈ rows)
    (himm : ∀ e ∈ rows, e.2 ≠ .imm) (hcross : addsCross m = false) (hresult : ∀ v c, result v c = result' v c)
    (hbefore : ∀ v c, (before v c).pc = c.pc) (hafter : ∀ r c, (after r c).pc = c.pc)
    (hexec : ∀ i : Instr, i.mnemonic = m → ∃ o, i.operand = .value o ∧
      ∀ s, exec i s = runModify i o result before after s) :
    ModifyRule m rows result' before after := by
  obtain rfl : result = result' := funext₂ hresult
  intro i
  have row_iff := forall_row (P := fun r => r.mnemonic = m ↔ (r.opcode, r.mode) ∈ rows) hrows i
  refine ⟨row_iff, fun hm => ?_⟩
  obtain ⟨o, ho, he⟩ := hexec i hm
  have cross : i.row.pageCross = false := pageCross_false (hm ▸ hcross)
  refine ⟨o, ho, fun s => ?_⟩
  cases o with
  | imm v =>
    have mode : i.row.mode = .imm := by
      rw [← operandMode_operand, ho]
      rfl
    exact himm _ (row_iff.1 hm) mode
  | acc => exact (he s).trans (runModify_acc_eq_next hbefore hafter cross)
  | mem mo =>
    obtain ⟨e, hea⟩ := fetchAddress_ok mo s
    refine ⟨e, hea, fun unreadable => ?_, fun readable => ?_⟩
    · obtain ⟨f, hf⟩ := busRead_faults unreadable
      exact ⟨f, hf, (he s).trans (runModify_readFault (by rw [fetchValue_mem hea, hf, Res.bind_fault]))⟩
    · obtain ⟨v, s1, hr⟩ := (busRead_completes e.1 s).2 readable
      refine ⟨v, s1, hr, fun completes => ?_, fun faults => ?_⟩
      · obtain ⟨s2, hw⟩ := (busWrite_completes e.1 (result v s.cpu) s1).2 completes
        exact ⟨s2, hw, (he s).trans (runModify_mem_eq_next hbefore hafter cross hea hr hw)⟩
      · obtain ⟨f, hf⟩ := busWrite_faults (s := { s1 with cpu := before v s.cpu }) faults
        exact ⟨f, hf, (he s).trans (runModify_mem_writeFault hea hr hf)⟩

/-- Settles O20: both mnemonics are read-modify-write in memory modes alone. -/
theorem incrementMemoryRules : Obligations.IncrementMemoryRules :=
  ⟨modifyRule_of_runModify (by decide) (by decide) rfl (fun _ _ => rfl) (fun _ _ => rfl) (fun _ _ => rfl)
      fun _ => exec_of_inc,
    modifyRule_of_runModify (by decide) (by decide) rfl (fun _ _ => rfl) (fun _ _ => rfl) (fun _ _ => rfl)
      fun _ => exec_of_dec⟩

/-- Settles O21: the four shifts are read-modify-write, with the shifts as the rules write them. -/
theorem shiftRules : Obligations.ShiftRules :=
  ⟨modifyRule_of_runModify (by decide) (by decide) rfl (fun v _ => shiftLeft_false v) (fun _ _ => rfl) (fun _ _ => rfl)
      fun _ => exec_of_asl,
    modifyRule_of_runModify (by decide) (by decide) rfl (fun v _ => shiftRight_false v) (fun _ _ => rfl) (fun _ _ => rfl)
      fun _ => exec_of_lsr,
    modifyRule_of_runModify (by decide) (by decide) rfl (fun v c => shiftLeft_eq v c.c) (fun _ _ => rfl) (fun _ _ => rfl)
      fun _ => exec_of_rol,
    modifyRule_of_runModify (by decide) (by decide) rfl (fun v c => shiftRight_eq v c.c) (fun _ _ => rfl) (fun _ _ => rfl)
      fun _ => exec_of_ror⟩

end Sys2Proof.Machine
end

section
/-! SUPPORT. Control flow (43_control_flow.md): the branch shape, jumps, subroutines, RTI, BRK, the flag instructions and NOP;
the proofs of O23 to O29. -/

namespace Sys2Proof.Machine

/-! ## Branches (43_control_flow.md R330 to R338) -/

/-- A displacement that fits is its byte, sign-extended (30_encoding.md R166). -/
theorem ofInt_eq_signExtend {d : Int} (h : displacementFits d = true) :
    BitVec.ofInt 16 d = (displacementByte d).signExtend 16 :=
  congrArg (BitVec.ofInt 16) (displacementOf_displacementByte h).symm

/-- A mnemonic whose one row is this, of 2 cycles, and whose meaning is the branch shape obeys `BranchRule`. -/
theorem branchRule_of_runBranch {m : Mnemonic} {opcode : Byte} {cond : Cpu → Bool}
    (hrow : ∀ op, ((decodeOp op 0 0).row.mnemonic = m ↔
        ((decodeOp op 0 0).row.opcode, (decodeOp op 0 0).row.mode) = (opcode, .rel)) ∧
      ((decodeOp op 0 0).row.mnemonic = m → (decodeOp op 0 0).row.baseCycles = 2))
    (hexec : ∀ i : Instr, i.mnemonic = m → ∃ d, i.operand = .rel d ∧ ∀ s, exec i s = runBranch i d (cond s.cpu) s) :
    BranchRule m opcode cond := by
  intro i
  obtain ⟨row_iff, hcycles⟩ := forall_row (P := fun r =>
    (r.mnemonic = m ↔ (r.opcode, r.mode) = (opcode, .rel)) ∧ (r.mnemonic = m → r.baseCycles = 2)) hrow i
  refine ⟨row_iff, fun hm => ?_⟩
  obtain ⟨d, ho, he⟩ := hexec i hm
  obtain ⟨hopcode, hmode⟩ := Prod.mk.inj (row_iff.1 hm)
  refine ⟨d, ho, fun wf => ⟨displacementByte d, ?bytes, ?displacement⟩, fun s => ⟨fun hc => ?notTaken, fun hc => ?taken⟩⟩
  case bytes =>
    rw [encode, hopcode, ho]
    rfl
  case displacement =>
    rw [Instr.WellFormed, wellFormed_eq_operandFits, ho] at wf
    exact ofInt_eq_signExtend wf
  case notTaken =>
    rw [he, hc, runBranch_not_taken, finish_eq, Instr.length, hmode, hcycles hm, crossCycle, Bool.and_false]
    rfl
  case taken =>
    rw [he, hc, runBranch_taken, hcycles hm, pageCross_eq]
    simp only [decide_eq_true_eq]
    rfl

/-- Settles O23: the eight mnemonics are branches, each with its row and its flag. -/
theorem branchRules : Obligations.BranchRules :=
  ⟨branchRule_of_runBranch (by decide) fun _ => exec_of_bcc, branchRule_of_runBranch (by decide) fun _ => exec_of_bcs,
    branchRule_of_runBranch (by decide) fun _ => exec_of_beq, branchRule_of_runBranch (by decide) fun _ => exec_of_bne,
    branchRule_of_runBranch (by decide) fun _ => exec_of_bmi, branchRule_of_runBranch (by decide) fun _ => exec_of_bpl,
    branchRule_of_runBranch (by decide) fun _ => exec_of_bvc, branchRule_of_runBranch (by decide) fun _ => exec_of_bvs⟩

/-! ## Jumps (R340 to R342) -/

/-- The mask keeps the low byte and clears the page. -/
theorem and_00FF (a : Word) : a &&& 0x00FF = wordOf (loByte a) 0 := by
  apply BitVec.eq_of_getLsbD_eq
  intro k hk
  simp only [wordOf, loByte, BitVec.getLsbD_and, BitVec.getLsbD_append]
  interval_cases k <;> simp

/-- Counting up within a page is counting up the low byte. -/
theorem loByte_add_one (p : Word) : loByte (p + 1) = loByte p + 1 := by
  simp only [loByte, ← BitVec.setWidth_eq_extractLsb' (show 8 ≤ 16 by decide)]
  exact BitVec.setWidth_add p 1 (by decide)

/-- The address of a pointer's high byte as R342 writes it, by masks. -/
theorem pointerHighAddr_eq (p : Word) : pointerHighAddr p = (p &&& 0xFF00) ||| ((p + 1) &&& 0x00FF) := by
  rw [and_FF00, and_00FF, loByte_add_one, pointerHighAddr, wordOf, wordOf, wordOf, BitVec.or_append]
  exact congrArg₂ (· ++ ·) BitVec.or_zero.symm BitVec.zero_or.symm

/-- A pointer that can be read is its two bytes, the low one read first (log entry 9). -/
theorem readJumpPointer_ok {p : Word} {s : State} (h : pointerReadable p s = true) :
    ∃ lo s1 hi s2, busRead p s = .ok lo s1 ∧ busRead (pointerHighAddr p) s1 = .ok hi s2 ∧
      readJumpPointer p s = .ok (wordOf lo hi) s2 := by
  obtain ⟨w, s2, h⟩ := (readJumpPointer_completes p s).2 h
  have bytes := h
  rw [readJumpPointer] at bytes
  obtain ⟨lo, s1, hlo, bytes⟩ := Res.bind_eq_ok.1 bytes
  obtain ⟨hi, s2', hhi, bytes⟩ := Res.bind_eq_ok.1 bytes
  cases bytes
  exact ⟨lo, s1, hi, s2, hlo, hhi, h⟩

theorem readJumpPointer_faults {p : Word} {s : State} (h : pointerReadable p s = false) :
    ∃ f, readJumpPointer p s = .fault f := by
  obtain ⟨w, t, hw⟩ | faults := Res.ok_or_fault (readJumpPointer p s)
  · have readable := (readJumpPointer_completes p s).1 ⟨w, t, hw⟩
    exact absurd (h.symm.trans readable) Bool.false_ne_true
  · exact faults

theorem exec_jmpInd (p : Word) (s : State) : exec (.jmpInd p) s = jmpIndForm (.jmpInd p) p s :=
  exec_eq_rowForm (.jmpInd p) s

/-- Settles O24: JMP absolute takes its operand, JMP indirect what its pointer holds. -/
theorem jumpRules : Obligations.JumpRules := by
  refine ⟨forall_row (P := fun r => r.mnemonic = .jmp ↔ (r.opcode, r.mode, r.baseCycles) ∈ _) (by decide),
    fun a s => ?absolute, fun p s readable => ?readable, fun p s unreadable => ?unreadable⟩
  case absolute => exact exec_eq_rowForm (.jmpAbs a) s
  case readable =>
    obtain ⟨lo, s1, hi, s2, hlo, hhi, hp⟩ := readJumpPointer_ok readable
    refine ⟨lo, s1, hi, s2, hlo, pointerHighAddr_eq p ▸ hhi, ?_⟩
    rw [exec_jmpInd, jmpIndForm, hp, ← (readJumpPointer_frame hp).cpu]
    rfl
  case unreadable =>
    obtain ⟨f, hf⟩ := readJumpPointer_faults unreadable
    exact ⟨f, by rw [exec_jmpInd, jmpIndForm, hf, Res.bind_fault, Res.outcome_fault]⟩

/-! ## Subroutines and returns (R343 to R345) -/

/-- Two pulls leave SP two more, modulo 256 (41_load_store_transfer.md R251). -/
theorem afterPull_afterPull (s : State) : afterPull (afterPull s) = { s with cpu := { s.cpu with sp := s.cpu.sp + 2 } } := by
  have sp : s.cpu.sp + 1 + 1 = s.cpu.sp + 2 := add_assoc _ _ _
  rw [afterPull_eq, afterPull_eq, sp]

/-- The two bytes that two pulls return lie above SP, the low byte first (41_load_store_transfer.md R251). -/
theorem pulledWord_eq (s : State) : pulledWord s = wordOf (Memory.read s.wram (0x100 + (s.cpu.sp + 1).toNat))
    (Memory.read s.wram (0x100 + (s.cpu.sp + 2).toNat)) := by
  have sp : s.cpu.sp + 1 + 1 = s.cpu.sp + 2 := add_assoc _ _ _
  rw [pulledWord, pulled_eq, pulled_eq, afterPull_eq, sp]

/-- Settles O25: JSR is a pushed word, RTS a pulled one, and a fetch is reads alone. -/
theorem subroutineRules : Obligations.SubroutineRules := by
  refine ⟨forall_row (P := fun r =>
      (r.mnemonic = .jsr ↔ (r.opcode, r.mode, r.baseCycles) = (0x20, .abs, 6)) ∧
      (r.mnemonic = .rts ↔ (r.opcode, r.mode, r.baseCycles) = (0x60, .imp, 6))) (by decide),
    fun s t a h => ⟨(fetch_frame h).cpu, (fetch_frame h).wram⟩, fun a s => ?jsr, fun s => ?rts⟩
  case jsr =>
    have he : exec (.jsr a) s = jsrForm (.jsr a) a s := exec_eq_rowForm _ s
    have sp : s.cpu.sp - 1 - 1 = s.cpu.sp - 2 := sub_sub _ _ _
    rw [he, jsrForm, pushWord_eq, sp]
    rfl
  case rts =>
    have he : exec .rts s = rtsForm .rts s := exec_eq_rowForm _ s
    rw [he, rtsForm, pulledWord_eq, afterPull_afterPull]
    rfl

/-- Settles O26: the status byte is pulled first, then the return address. -/
theorem returnFromInterruptRule : Obligations.ReturnFromInterruptRule := by
  refine ⟨forall_row (P := fun r => r.mnemonic = .rti ↔ (r.opcode, r.mode, r.baseCycles) = (0x40, .imp, 6)) (by decide),
    fun s => ?_⟩
  have he : exec .rti s = rtiForm .rti s := exec_eq_rowForm _ s
  have sp2 : s.cpu.sp + 1 + 1 = s.cpu.sp + 2 := add_assoc _ _ _
  have sp3 : s.cpu.sp + 1 + 2 = s.cpu.sp + 3 := add_assoc _ _ _
  rw [he, rtiForm, returnFromInterrupt, afterPull_afterPull, pulledWord_eq, pulled_eq, afterPull_eq]
  simp only [State.mapCpu, Cpu.setP, sp2, sp3]
  rfl

/-! ## BRK (R346; 60_exceptions.md R704) -/

/-- BRK is suppressed while I = 1 or inside an NMI handler. -/
theorem suppressed_brk_iff (c : Cpu) : IntKind.brk.suppressed c = true ↔ c.i = true ∨ c.inNmi = true :=
  Bool.or_eq_true_iff

/-- Settles O27: taken, BRK ends as a jump; suppressed, as an implied instruction. -/
theorem breakRule : Obligations.BreakRule := by
  have rows := forall_row (P := fun r => r.mnemonic = .brk ↔ (r.opcode, r.mode, r.baseCycles) = (0x00, .imp, 7)) (by decide)
  have he : ∀ s, exec .brk s = brkForm .brk s := exec_eq_rowForm .brk
  refine ⟨rows, fun s hi hn => ?taken, fun s h => ?suppressed⟩
  case taken =>
    have taken : ¬IntKind.brk.suppressed s.cpu = true := by simp [suppressed_brk_iff, hi, hn]
    rw [he, brkForm, if_neg taken]
    rfl
  case suppressed =>
    rw [he, brkForm, if_pos ((suppressed_brk_iff _).2 h), finish_of_row ((rows .brk).1 rfl)]

/-! ## The flag instructions (R347 to R353) -/

/-- Settles O28: the seven mnemonics work on one flag, each with its one row. -/
theorem flagInstructionRules : Obligations.FlagInstructionRules :=
  ⟨impliedRule_of_runImplied (by decide) (fun _ => rfl) fun _ => exec_of_clc,
    impliedRule_of_runImplied (by decide) (fun _ => rfl) fun _ => exec_of_sec,
    impliedRule_of_runImplied (by decide) (fun _ => rfl) fun _ => exec_of_cli,
    impliedRule_of_runImplied (by decide) (fun _ => rfl) fun _ => exec_of_sei,
    impliedRule_of_runImplied (by decide) (fun _ => rfl) fun _ => exec_of_cld,
    impliedRule_of_runImplied (by decide) (fun _ => rfl) fun _ => exec_of_sed,
    impliedRule_of_runImplied (by decide) (fun _ => rfl) fun _ => exec_of_clv⟩

/-! ## NOP (R354; 44_unofficial.md R394) -/

/-- An instruction without operand is of the implied mode (30_encoding.md R161). -/
theorem mode_of_imp {i : Instr} (ho : i.operand = .imp) : i.row.mode = .imp := by
  rw [← operandMode_operand, ho, operandMode]

section
variable {i : Instr} (hm : i.mnemonic = .nop)
include hm

/-- The NOP rows without an operand take 2 cycles. -/
theorem baseCycles_of_nop_imp (ho : i.operand = .imp) : i.row.baseCycles = 2 :=
  forall_row (P := fun r => r.mnemonic = .nop → r.mode = .imp → r.baseCycles = 2) (by decide) i hm (mode_of_imp ho)

theorem exec_nop_imp (ho : i.operand = .imp) (s : State) : exec i s = nopForm i s := by
  obtain ⟨-, he⟩ | ⟨o, ho', -⟩ := exec_of_nop hm
  · exact he s
  · cases ho.symm.trans ho'

theorem exec_nop_value {o : ValueOperand} (ho : i.operand = .value o) (s : State) : exec i s = nopReadForm i o s := by
  obtain ⟨ho', -⟩ | ⟨o', ho', he⟩ := exec_of_nop hm
  · cases ho.symm.trans ho'
  · cases ho.symm.trans ho'
    exact he s

end

/-- Settles O29: with no operand NOP is implied, with one it is a read that changes no register. -/
theorem nopRules : Obligations.NopRules := by
  refine ⟨forall_row (P := fun r => r.mnemonic = .nop ↔ (r.opcode, r.mode, r.baseCycles, r.pageCross) ∈ _) (by decide),
    fun i s hm ho => ?implied, fun i s o hm ho => ⟨fun readable => ?readable, fun unreadable => ?unreadable⟩⟩
  case implied =>
    rw [exec_nop_imp hm ho, nopForm, runImplied_eq, finish_implied (mode_of_imp ho), baseCycles_of_nop_imp hm ho]
    rfl
  case readable =>
    obtain ⟨r, s1, hr⟩ := (fetchValue_completes o s).2 readable
    exact ⟨r, s1, hr, (exec_nop_value hm ho s).trans (runRead_eq_next (fun _ _ => rfl) hr)⟩
  case unreadable =>
    obtain ⟨f, hf⟩ := fetchValue_faults unreadable
    exact ⟨f, hf, (exec_nop_value hm ho s).trans (runRead_fault hf)⟩

end Sys2Proof.Machine
end

section
/-! SUPPORT. The unofficial mnemonics (44_unofficial.md): the immediate combinations and the combined read-modify-writes are
instances of the rules' shapes, and the opcodes that stop have one shape of their own; the proofs of O16, O22 and O30. -/

namespace Sys2Proof.Machine

/-- Settles O16: the four mnemonics are reads, ALR and ARR with the shifts as the rules write them (R390, R391). -/
theorem immediateCombinationRules : Obligations.ImmediateCombinationRules := by
  rw [Obligations.ImmediateCombinationRules]
  simp only [← shiftRight_eq]
  simp only [← shiftRight_false]
  exact ⟨readRule_of_runRead (by decide) (fun _ _ => rfl) fun _ => exec_of_anc,
    readRule_of_runRead (by decide) (fun _ _ => rfl) fun _ => exec_of_alr,
    readRule_of_runRead (by decide) (fun _ _ => rfl) fun _ => exec_of_arr,
    readRule_of_runRead (by decide) (fun _ _ => rfl) fun _ => exec_of_axs⟩

/-- Settles O22: the six mnemonics are read-modify-write in memory modes alone, with the shifts and the sum as the rules write
them. -/
theorem combinedModifyRules : Obligations.CombinedModifyRules := by
  have sum : ruleAddCore = Cpu.addCore := funext₂ ruleAddCore_eq
  rw [Obligations.CombinedModifyRules, sum]
  exact ⟨modifyRule_of_runModify (by decide) (by decide) rfl (fun v _ => shiftLeft_false v) (fun _ _ => rfl) (fun _ _ => rfl)
      fun _ => exec_of_slo,
    modifyRule_of_runModify (by decide) (by decide) rfl (fun v c => shiftLeft_eq v c.c) (fun _ _ => rfl) (fun _ _ => rfl)
      fun _ => exec_of_rla,
    modifyRule_of_runModify (by decide) (by decide) rfl (fun v _ => shiftRight_false v) (fun _ _ => rfl) (fun _ _ => rfl)
      fun _ => exec_of_sre,
    modifyRule_of_runModify (by decide) (by decide) rfl (fun v c => shiftRight_eq v c.c) (fun _ _ => rfl) (fun _ _ => rfl)
      fun _ => exec_of_rra,
    modifyRule_of_runModify (by decide) (by decide) rfl (fun _ _ => rfl) (fun _ _ => rfl) (fun _ _ => rfl)
      fun _ => exec_of_dcp,
    modifyRule_of_runModify (by decide) (by decide) rfl (fun _ _ => rfl) (fun _ _ => rfl) (fun _ _ => rfl)
      fun _ => exec_of_isc⟩

/-- A mnemonic whose rows are these and are faulting rows obeys `FaultRule`. -/
theorem faultRule_of_rows {m : Mnemonic} {rows : List (Byte × Mode × Nat × Bool)}
    (hrows : ∀ op, (decodeOp op 0 0).row.mnemonic = m ↔
      ((decodeOp op 0 0).row.opcode, (decodeOp op 0 0).row.mode, (decodeOp op 0 0).row.baseCycles,
        (decodeOp op 0 0).row.pageCross) ∈ rows)
    (hfaults : m ∈ [.jam, .xaa, .ahx, .tas, .shy, .shx, .lxa, .las]) : FaultRule m rows := by
  intro i
  refine ⟨forall_row (P := fun r => r.mnemonic = m ↔ (r.opcode, r.mode, r.baseCycles, r.pageCross) ∈ rows) hrows i,
    fun hm s => ?_⟩
  have faults : i.faults = true := (faults_iff i).2 (hm ▸ hfaults)
  exact exec_of_faults faults s

/-- Settles O30: the eight mnemonics are those of the faulting rows, each with its rows. -/
theorem faultingOpcodes : Obligations.FaultingOpcodes :=
  ⟨faultRule_of_rows (by decide) (by decide), faultRule_of_rows (by decide) (by decide),
    faultRule_of_rows (by decide) (by decide), faultRule_of_rows (by decide) (by decide),
    faultRule_of_rows (by decide) (by decide), faultRule_of_rows (by decide) (by decide),
    faultRule_of_rows (by decide) (by decide), faultRule_of_rows (by decide) (by decide)⟩

end Sys2Proof.Machine
end

section
/-! SUPPORT. The PPU register ports (45_ppu_registers.md R420 to R434): one equation for each half of PPUSCROLL and PPUADDR and
for each way that PPUDATA goes, and the proofs of O37 to O39 over them. -/

namespace Sys2Proof.Machine

/-! ## The halves of PPUSCROLL and PPUADDR (R431, R432) -/

section
variable {d : Byte} {p : Ppu}

theorem Ppu.writeScroll_first (h : p.w = false) :
    p.writeScroll d = { p with t := (p.t &&& ~~~0x001F#15) ||| (d.setWidth 15 >>> 3), x := d.setWidth 3, w := true } :=
  if_neg (ne_true_of_eq_false h)

theorem Ppu.writeScroll_second (h : p.w = true) :
    p.writeScroll d = { p with
      t := (p.t &&& ~~~0x73E0#15) ||| ((d.setWidth 15 &&& 0x07#15) <<< 12) ||| ((d.setWidth 15 >>> 3) <<< 5), w := false } :=
  if_pos h

theorem Ppu.writeAddr_first (h : p.w = false) :
    p.writeAddr d = { p with t := (p.t &&& 0x00FF#15) ||| ((d.setWidth 15 &&& 0x3F#15) <<< 8), w := true } :=
  if_neg (ne_true_of_eq_false h)

theorem Ppu.writeAddr_second (h : p.w = true) :
    p.writeAddr d = { p with
      t := (p.t &&& 0x7F00#15) ||| d.setWidth 15, v := (p.t &&& 0x7F00#15) ||| d.setWidth 15, w := false } :=
  if_pos h

end

section
variable {s : State} {a : Nat} {d b : Byte}

/-! ## One access of the PPU space (20_memory.md R111 to R114) -/

theorem ppuCellOf_chr (hi : a < 0x2000) : ppuCellOf s a = .chr a := if_pos hi

theorem ppuCellOf_nt (lo : 0x2000 ≤ a) (hi : a < 0x3F00) : ppuCellOf s a = .nt (ntIndex s.cart.mirroring a) := by
  rw [ppuCellOf, if_neg (by omega), if_pos hi]

theorem ppuCellOf_pal (lo : 0x3F00 ≤ a) : ppuCellOf s a = .pal (palIndex a) := by
  rw [ppuCellOf, if_neg (by omega), if_neg (by omega)]

theorem ppuPeek_nt (lo : 0x2000 ≤ a) (hi : a < 0x3F00) :
    ppuPeek s a = some (Memory.read s.ppu.nt (ntIndex s.cart.mirroring a)) := by
  rw [ppuPeek_eq_ppuCellByte, ppuCellOf_nt lo hi, ppuCellByte]

theorem ppuRead_of_peek_some (h : ppuPeek s a = some b) : ppuRead a s = .ok b s := by
  rw [ppuRead, h]

theorem ppuRead_of_peek_none (h : ppuPeek s a = none) : ppuRead a s = .fault (.f7ChrBounds s.cpu.pc a s) := by
  rw [ppuRead, h]

theorem ppuWrite_stores (h : 0x2000 ≤ a ∨ a < s.cart.chrSize) :
    ppuWrite a d s = .ok () (s.setPpuCell (ppuCellOf s a) d) := by
  obtain ⟨t, ht⟩ := (ppuWrite_completes a d s).2 h
  rw [ht, ppuWrite_ok ht]

theorem ppuWrite_faults (hi : a < 0x2000) (past : s.cart.chrSize ≤ a) :
    ppuWrite a d s = .fault (.f7ChrBounds s.cpu.pc a s) := by
  rw [ppuWrite, if_pos hi, if_neg (by omega)]

/-! ## PPUDATA (R433, R434) -/

theorem writeData_stores {c : PpuCell} (h : 0x2000 ≤ s.ppu.dataAddr ∨ s.ppu.dataAddr < s.cart.chrSize)
    (cell : ppuCellOf s s.ppu.dataAddr = c) : writeData d s = .ok () ((s.setPpuCell c d).mapPpu Ppu.incV) := by
  rw [writeData, ppuWrite_stores h, cell, Res.bind_ok]

theorem writeData_faults (hi : s.ppu.dataAddr < 0x2000) (past : s.cart.chrSize ≤ s.ppu.dataAddr) :
    writeData d s = .fault (.f7ChrBounds s.cpu.pc s.ppu.dataAddr s) := by
  rw [writeData, ppuWrite_faults hi past, Res.bind_fault]

theorem readData_buffer (hi : s.ppu.dataAddr < 0x3F00) (h : ppuPeek s s.ppu.dataAddr = some b) :
    readData s = .ok s.ppu.rdbuf (s.mapPpu fun p => Ppu.incV { p with rdbuf := b }) := by
  simp only [readData]
  rw [if_pos hi, ppuRead_of_peek_some h, Res.bind_ok]

theorem readData_faults (hi : s.ppu.dataAddr < 0x3F00) (h : ppuPeek s s.ppu.dataAddr = none) :
    readData s = .fault (.f7ChrBounds s.cpu.pc s.ppu.dataAddr s) := by
  simp only [readData]
  rw [if_pos hi, ppuRead_of_peek_none h, Res.bind_fault]

theorem Ppu.dataAddr_lt (p : Ppu) : p.dataAddr < 0x4000 := Nat.mod_lt _ (by decide)

/-- The address 0x1000 below a palette address is a nametable address. -/
theorem readData_palette (lo : 0x3F00 ≤ s.ppu.dataAddr) :
    readData s = .ok ((drawn s).extractLsb' 6 2 ++ s.ppu.palRead s.ppu.dataAddr)
      (s.afterDraw.mapPpu fun p => Ppu.incV
        { p with rdbuf := Memory.read s.ppu.nt (ntIndex s.cart.mirroring (s.ppu.dataAddr - 0x1000)) }) := by
  have hi := s.ppu.dataAddr_lt
  have beneath : ppuPeek s (s.ppu.dataAddr - 0x1000) = _ := ppuPeek_nt (by omega) (by omega)
  simp only [readData]
  rw [if_neg (by omega), ppuRead_of_peek_some beneath, Res.bind_ok]

end

/-- PPUDATA's palette byte (R434): the entry below the two oracle bits, as the masks write it. -/
theorem extract_append_eq_or (r : Byte) (c : BitVec 6) :
    r.extractLsb' 6 2 ++ c = (c.setWidth 8 &&& 0x3F) ||| (r &&& 0xC0) := by
  refine BitVec.eq_of_getLsbD_eq fun i hi => ?_
  rw [BitVec.getLsbD_append]
  interval_cases i <;> simp

/-! ## The ports at every mirror (20_memory.md R106) -/

/-- Settles O37: each port is one register write, with PPUSCROLL and PPUADDR by the toggle. -/
theorem ppuPortWrites : Obligations.PpuPortWrites := by
  intro s a d lo hi
  simp only [busWrite_port lo hi, portWrite]
  refine ⟨fun port bit5 => ?_, fun port bit5 => ?_, fun port => ?_, fun port => ?_, fun port => ?_, fun port => ?_,
    fun port w => ?_, fun port w => ?_, fun port w => ?_, fun port w => ?_⟩ <;> simp only [port]
  · exact if_neg (ne_true_of_eq_false bit5)
  · exact if_pos bit5
  · rfl
  · rfl
  · rfl
  · rw [State.mapPpu, Ppu.writeScroll_first w]
  · rw [State.mapPpu, Ppu.writeScroll_second w]
  · rw [State.mapPpu, Ppu.writeAddr_first w]
  · rw [State.mapPpu, Ppu.writeAddr_second w]

/-- Settles O38: the write sets the cell that PPUDATA's address names, or the address is past the CHR size. -/
theorem ppuDataWrites : Obligations.PpuDataWrites := by
  intro s a d lo hi port
  simp only [busWrite_port lo hi, portWrite, port]
  refine ⟨fun chr inside => ?_, fun chr past => writeData_faults chr past, fun above below => ?_, fun above => ?_⟩
  · exact writeData_stores (.inr inside) (ppuCellOf_chr chr)
  · exact writeData_stores (.inl above) (ppuCellOf_nt above below)
  · exact writeData_stores (.inl (Nat.le_trans (by decide) above)) (ppuCellOf_pal above)

/-- Settles O39: PPUDATA's read goes one of three ways, by its address and the byte there. -/
theorem ppuPortReads : Obligations.PpuPortReads := by
  intro s a lo hi
  simp only [busRead_port lo hi, portRead]
  refine ⟨fun port => ?_, fun port => ?_, fun port below b hb => ?_, fun port below hb => ?_, fun port above => ?_⟩ <;>
    simp only [port]
  · rfl
  · exact readData_buffer below hb
  · exact readData_faults below hb
  · rw [← extract_append_eq_or]
    exact readData_palette above

end Sys2Proof.Machine
end

section
/-! SUPPORT. The scroll updates by field of the scroll address (46_ppu_rendering.md R481 to R485): what each masks, where an
addition carries, and the proof of O41. -/

namespace Sys2Proof.Machine

/-! ## The fields under the masks -/

/-- Coarse X: `v[4:0]` (R481). -/
abbrev coarseX (v : BitVec 15) : BitVec 5 := v.extractLsb' 0 5

/-- Coarse Y: `v[9:5]` (R482). -/
abbrev coarseY (v : BitVec 15) : BitVec 5 := v.extractLsb' 5 5

/-- Fine Y: `v[14:12]` (R482). -/
abbrev fineY (v : BitVec 15) : BitVec 3 := v.extractLsb' 12 3

/-- A 5-bit field under a mask that keeps all of it. -/
theorem and_fullMask5 (c : BitVec 5) : c &&& 31#5 = c := BitVec.and_allOnes

/-- A 3-bit field under a mask that keeps all of it. -/
theorem and_fullMask3 (f : BitVec 3) : f &&& 7#3 = f := BitVec.and_allOnes

/-- A field of a field is a field. -/
theorem extractLsb'_of_extractLsb' {w k n start len : Nat} (v : BitVec w) (h : start + len ≤ n) :
    (v.extractLsb' k n).extractLsb' start len = v.extractLsb' (k + start) len := by
  ext i hi
  simp [show start + i < n by omega, Nat.add_assoc]

theorem coarseX_mask (v : BitVec 15) : v &&& 0x001F#15 = (coarseX v).setWidth 15 := by
  refine BitVec.eq_of_getLsbD_eq fun i hi => ?_
  interval_cases i <;> simp

theorem fineY_mask (v : BitVec 15) : v &&& 0x7000#15 = (fineY v).setWidth 15 <<< 12 := by
  refine BitVec.eq_of_getLsbD_eq fun i hi => ?_
  interval_cases i <;> simp

theorem coarseY_mask (v : BitVec 15) : ((v &&& ~~~0x7000#15) >>> 5) &&& 0x1F#15 = (coarseY v).setWidth 15 := by
  refine BitVec.eq_of_getLsbD_eq fun i hi => ?_
  interval_cases i <;> simp

/-! ## Where an addition carries -/

theorem coarseX_add_one (v : BitVec 15) : coarseX (v + 1#15) = coarseX v + 1#5 := BitVec.extractLsb'_add (by decide)

/-- Adding 1 carries out of coarse X only at 31. -/
theorem add_one_above_coarseX {v : BitVec 15} (h : coarseX v ≠ 31#5) :
    (v + 1#15).extractLsb' 5 10 = v.extractLsb' 5 10 := by
  have hn : v.toNat % 32 ≠ 31 := fun e => h (BitVec.eq_of_toNat_eq (by simpa using e))
  have hv := v.isLt
  apply BitVec.eq_of_toNat_eq
  simp only [BitVec.extractLsb'_toNat, BitVec.toNat_add, BitVec.toNat_ofNat, Nat.shiftRight_eq_div_pow]
  omega

theorem fineY_add_one (v : BitVec 15) : fineY (v + 0x1000#15) = fineY v + 1#3 := by
  apply BitVec.eq_of_toNat_eq
  simp only [BitVec.extractLsb'_toNat, BitVec.toNat_add, BitVec.toNat_ofNat, Nat.shiftRight_eq_div_pow]
  omega

/-- Adding 1 to fine Y leaves the twelve bits below it. -/
theorem add_one_below_fineY (v : BitVec 15) : (v + 0x1000#15).extractLsb' 0 12 = v.extractLsb' 0 12 := by
  rw [BitVec.extractLsb'_add (by decide)]
  exact BitVec.add_zero _

/-! ## `IncCoarseX` (R481) -/

theorem coarseX_mask_full (v : BitVec 15) : v &&& 0x001F#15 = 31#15 ↔ coarseX v = 31#5 := by
  have : ∀ c : BitVec 5, c.setWidth 15 = 31#15 ↔ c = 31#5 := by decide
  rw [coarseX_mask, this]

theorem incCoarseX_fields (v : BitVec 15) :
    coarseX (incCoarseX v) = coarseX v + 1#5 ∧ (incCoarseX v).getLsbD 10 = (v.getLsbD 10 ^^ (coarseX v == 31#5)) ∧
      (incCoarseX v).getLsbD 11 = v.getLsbD 11 ∧ coarseY (incCoarseX v) = coarseY v ∧
      fineY (incCoarseX v) = fineY v := by
  by_cases h : coarseX v = 31#5
  · rw [incCoarseX, if_pos ((coarseX_mask_full v).2 h), h]
    simp [BitVec.extractLsb'_and, BitVec.extractLsb'_xor, and_fullMask5, and_fullMask3]
  · rw [incCoarseX, if_neg (mt (coarseX_mask_full v).1 h), beq_false_of_ne h, Bool.xor_false]
    have above := add_one_above_coarseX h
    refine ⟨coarseX_add_one v, ?_, ?_, ?_, ?_⟩
    · simpa using congrArg (·.getLsbD 5) above
    · simpa using congrArg (·.getLsbD 6) above
    · simpa [extractLsb'_of_extractLsb'] using congrArg (·.extractLsb' 0 5) above
    · simpa [extractLsb'_of_extractLsb'] using congrArg (·.extractLsb' 7 3) above

/-! ## `IncY` (R482) -/

theorem fineY_mask_full (v : BitVec 15) : v &&& 0x7000#15 = 0x7000#15 ↔ fineY v = 7#3 := by
  have : ∀ f : BitVec 3, f.setWidth 15 <<< 12 = 0x7000#15 ↔ f = 7#3 := by decide
  rw [fineY_mask, this]

/-- Coarse Y after `IncY` at fine Y 7: 29 and 31 both go to 0. -/
def nextCoarseY (c : BitVec 5) : BitVec 5 := if c = 29#5 then 0#5 else c + 1#5

theorem nextCoarseY_setWidth : ∀ c : BitVec 5,
    (if c.setWidth 15 = 29#15 then 0#15 else if c.setWidth 15 = 31#15 then 0#15 else c.setWidth 15 + 1#15) =
      (nextCoarseY c).setWidth 15 := by
  decide

/-- A coarse Y moved to its place leaves the other fields 0. -/
theorem fields_of_coarseY : ∀ c : BitVec 5, coarseX (c.setWidth 15 <<< 5) = 0#5 ∧ coarseY (c.setWidth 15 <<< 5) = c ∧
    fineY (c.setWidth 15 <<< 5) = 0#3 := by
  decide

/-- `IncY` at fine Y 7, with coarse Y as a field. -/
theorem incY_wrap {v : BitVec 15} (h : fineY v = 7#3) :
    incY v = ((if coarseY v = 29#5 then (v &&& ~~~0x7000#15) ^^^ 0x0800#15 else v &&& ~~~0x7000#15) &&& ~~~0x03E0#15) |||
      ((nextCoarseY (coarseY v)).setWidth 15 <<< 5) := by
  have at29 : ∀ c : BitVec 5, c.setWidth 15 = 29#15 ↔ c = 29#5 := by decide
  rw [incY, if_neg (not_not.2 ((fineY_mask_full v).2 h))]
  simp only [coarseY_mask]
  rw [nextCoarseY_setWidth]
  simp only [at29]

theorem incY_fields (v : BitVec 15) :
    fineY (incY v) = fineY v + 1#3 ∧ coarseX (incY v) = coarseX v ∧ (incY v).getLsbD 10 = v.getLsbD 10 ∧
      coarseY (incY v) = (if fineY v ≠ 7#3 then coarseY v else if coarseY v = 29#5 then 0#5 else coarseY v + 1#5) ∧
      (incY v).getLsbD 11 = (v.getLsbD 11 ^^ (fineY v == 7#3 && coarseY v == 29#5)) := by
  by_cases h : fineY v = 7#3
  · obtain ⟨hx, hy, hf⟩ := fields_of_coarseY (nextCoarseY (coarseY v))
    rw [incY_wrap h, h, if_neg (not_not.2 rfl), ← nextCoarseY]
    generalize nextCoarseY (coarseY v) = next at hx hy hf
    by_cases h29 : coarseY v = 29#5
    · rw [if_pos h29, h29]
      simp [hx, hy, hf, BitVec.extractLsb'_and, BitVec.extractLsb'_or, BitVec.extractLsb'_xor, and_fullMask5]
    · rw [if_neg h29, beq_false_of_ne h29]
      simp [hx, hy, hf, BitVec.extractLsb'_and, BitVec.extractLsb'_or, and_fullMask5]
  · rw [incY, if_pos (mt (fineY_mask_full v).1 h), if_pos h, beq_false_of_ne h, Bool.false_and, Bool.xor_false]
    have below := add_one_below_fineY v
    refine ⟨fineY_add_one v, ?_, ?_, ?_, ?_⟩
    · simpa [extractLsb'_of_extractLsb'] using congrArg (·.extractLsb' 0 5) below
    · simpa using congrArg (·.getLsbD 10) below
    · simpa [extractLsb'_of_extractLsb'] using congrArg (·.extractLsb' 5 5) below
    · simpa using congrArg (·.getLsbD 11) below

/-! ## `CopyX` and `CopyY` (R484, R485) -/

theorem copyX_fields (v t : BitVec 15) :
    coarseX (copyX v t) = coarseX t ∧ (copyX v t).getLsbD 10 = t.getLsbD 10 ∧ coarseY (copyX v t) = coarseY v ∧
      fineY (copyX v t) = fineY v ∧ (copyX v t).getLsbD 11 = v.getLsbD 11 := by
  simp [copyX, BitVec.extractLsb'_and, BitVec.extractLsb'_or, and_fullMask5, and_fullMask3]

theorem copyY_fields (v t : BitVec 15) :
    coarseY (copyY v t) = coarseY t ∧ fineY (copyY v t) = fineY t ∧ (copyY v t).getLsbD 11 = t.getLsbD 11 ∧
      coarseX (copyY v t) = coarseX v ∧ (copyY v t).getLsbD 10 = v.getLsbD 10 := by
  simp [copyY, BitVec.extractLsb'_and, BitVec.extractLsb'_or, and_fullMask5, and_fullMask3]

/-- Settles O41: the four updates, each by its fields. -/
theorem scrollUpdates : Obligations.ScrollUpdates := fun v t =>
  ⟨incCoarseX_fields v, incY_fields v, copyX_fields v t, copyY_fields v t⟩

end Sys2Proof.Machine
end

section
/-! SUPPORT. The background pixel and the sprite-0 check (46_ppu_rendering.md R476 to R480, R506): one equation for each way that
they go, what plotting a pixel does to the two picture stores, and the proofs of O42 to O44. -/

namespace Sys2Proof.Machine

/-! ## Plotting a pixel (R476) -/

theorem Ppu.transparent_plot {l d l' d' : Nat} (k : BitVec 6) (b : Bool) (p : Ppu) (hd : d < 256) (hd' : d' < 256)
    (w : Cells.wf true p.bgt = true) :
    (p.plot l d k b).transparent l' d' = if l' = l ∧ d' = d then b else p.transparent l' d' := by
  unfold Ppu.plot Ppu.transparent
  split
  · rename_i h
    rw [h.1, h.2]
    exact Cells.read_write_same _ _ w
  · rename_i h
    exact Cells.read_write_other _ fun e => h (pixelIndex_inj hd' hd e)

/-- After a plot, and a change of any other field, the pixel holds what was plotted and every other pixel what it held. -/
theorem Ppu.pixels_of_plot {l d : Nat} {k : BitVec 6} {b : Bool} {p q : Ppu} (i : p.Inv) (hd : d < 256)
    (hc : q.color = (p.plot l d k b).color) (hb : q.bgt = (p.plot l d k b).bgt) :
    q.colorAt l d = k ∧ q.transparent l d = b ∧ ∀ l' d', d' < 256 → (l', d') ≠ (l, d) →
      q.colorAt l' d' = p.colorAt l' d' ∧ q.transparent l' d' = p.transparent l' d' := by
  have color (l' d' : Nat) (hd' : d' < 256) : q.colorAt l' d' = if l' = l ∧ d' = d then k else p.colorAt l' d' := by
    rw [← Ppu.colorAt_setColor k p hd hd' i.color.1, Ppu.colorAt, hc]
    rfl
  have flag (l' d' : Nat) (hd' : d' < 256) :
      q.transparent l' d' = if l' = l ∧ d' = d then b else p.transparent l' d' := by
    rw [← Ppu.transparent_plot k b p hd hd' i.bgt.1, Ppu.transparent, hb]
    rfl
  refine ⟨(color l d hd).trans (if_pos ⟨rfl, rfl⟩), (flag l d hd).trans (if_pos ⟨rfl, rfl⟩), fun l' d' hd' other => ?_⟩
  have apart : ¬(l' = l ∧ d' = d) := fun e => other (by rw [e.1, e.2])
  exact ⟨(color l' d' hd').trans (if_neg apart), (flag l' d' hd').trans (if_neg apart)⟩

/-! ## The background pixel (R476 to R480) -/

theorem ntAddr_eq (v : BitVec 15) : ntAddr v = 0x2000 + v.toNat % 0x1000 := by
  have low : v.toNat &&& 0x0FFF = v.toNat % 0x1000 := Nat.and_two_pow_sub_one_eq_mod v.toNat 12
  rw [ntAddr, low]
  exact (Nat.two_pow_add_eq_or_of_lt (i := 13) (Nat.lt_trans (Nat.mod_lt _ (by decide)) (by decide)) 1).symm

/-- The palette entry that a background pixel value shows (R476). -/
def Ppu.bgColor (p : Ppu) (pid c : Nat) : BitVec 6 :=
  if c = 0 then p.palRead 0x3F00 else p.palRead (0x3F00 + 4 * pid + c)

/-- A background pixel is one plot, and the column counter moves on: at 7 to 0, with coarse X. -/
theorem Ppu.drawBg_eq (l d pid c : Nat) (p : Ppu) :
    p.drawBg l d pid c = { p.plot l d (p.bgColor pid c) (decide (c = 0)) with
      fx := p.fx + 1, v := if p.fx = 7 then incCoarseX p.v else p.v } := by
  have plotted : p.drawBg l d pid c = (p.plot l d (p.bgColor pid c) (decide (c = 0))).nextColumn := by
    unfold Ppu.drawBg Ppu.bgColor
    by_cases h : c = 0 <;> simp only [h, if_true, if_false, decide_true, decide_false]
  rw [plotted, Ppu.nextColumn]
  split
  · rename_i h
    have seven : p.fx = 7 := h
    rw [if_pos seven, seven]
    rfl
  · rename_i h
    rw [if_neg (show ¬p.fx = 7 from h)]
    rfl

theorem Ppu.clipBg_eq (p : Ppu) (d c : Nat) :
    p.clipBg d c = if (p.mask.getLsbD 3 && (p.mask.getLsbD 1 || decide (8 ≤ d))) = true then c else 0 := by
  unfold Ppu.clipBg
  by_cases h : 8 ≤ d <;> cases p.mask.getLsbD 3 <;> cases p.mask.getLsbD 1 <;> simp_all

section
variable {s : State} {l d : Nat}

theorem bgPixel_off (h : s.ppu.rendering = false) :
    bgPixel l d s = .ok () (s.mapPpu fun p => p.plot l d (p.palRead 0x3F00) true) := by
  rw [bgPixel, h]
  rfl

/-- With rendering on and the four bytes readable, the pixel is drawn from them. -/
theorem bgPixel_on {tile attr lo hi : Byte} (h : s.ppu.rendering = true) (htile : ppuPeek s (ntAddr s.ppu.v) = some tile)
    (hattr : ppuPeek s (atAddr s.ppu.v) = some attr)
    (hlo : ppuPeek s (patternAddr (patternBase (s.ppu.ctrl.getLsbD 4)) tile (s.ppu.v.toNat / 0x1000)) = some lo)
    (hhi : ppuPeek s (patternAddr (patternBase (s.ppu.ctrl.getLsbD 4)) tile (s.ppu.v.toNat / 0x1000) + 8) = some hi) :
    bgPixel l d s = .ok () (s.mapPpu fun p => p.drawBg l d (attr.toNat >>> atShift s.ppu.v &&& 3)
      (p.clipBg d (planePixel hi lo (7 - s.ppu.fx.toNat)))) := by
  rw [bgPixel, if_pos h, ppuRead_of_peek_some htile, Res.bind_ok, ppuRead_of_peek_some hattr, Res.bind_ok]
  simp only [ppuRead_of_peek_some hlo, ppuRead_of_peek_some hhi, Res.bind_ok]

end

/-- Settles O43: with rendering off the pixel is plotted and nothing else done. -/
theorem backdropPixel : Obligations.BackdropPixel := by
  intro s l d inv _ hd off
  obtain ⟨color, flag, others⟩ := Ppu.pixels_of_plot (l := l) (k := s.ppu.palRead 0x3F00) (b := true) inv.ppu hd rfl rfl
  exact ⟨_, bgPixel_off off, color, flag, others, rfl⟩

/-- Settles O42: the pixel is plotted with the palette entry of its clipped value, and the column moves on. -/
theorem backgroundPixel : Obligations.BackgroundPixel := by
  intro s l d tile attr lo hi inv _ hd on p base htile hattr hlo hhi shown bit c pid
  rw [← ntAddr_eq] at htile
  have drawn : bgPixel l d s = .ok () (s.mapPpu (Ppu.drawBg l d pid c)) := by
    rw [bgPixel_on on htile hattr hlo hhi, State.mapPpu, Ppu.clipBg_eq]
    rfl
  have eq := Ppu.drawBg_eq l d pid c p
  obtain ⟨color, flag, others⟩ := Ppu.pixels_of_plot (l := l) (k := p.bgColor pid c) (b := decide (c = 0))
    (q := p.drawBg l d pid c) inv.ppu hd (by rw [eq]) (by rw [eq])
  refine ⟨_, drawn, color, flag, others, ?_, ?_, ?_⟩
  · exact congrArg Ppu.fx eq
  · exact congrArg Ppu.v eq
  · rw [State.mapPpu, eq]
    rfl

/-! ## The sprite-0 check (R506) -/

theorem Sprite.covers_eq (sp : Sprite) (l x : Nat) : sp.covers l x =
    decide (sp.y.toNat + 1 ≤ l ∧ l ≤ sp.y.toNat + 8 ∧ sp.x.toNat ≤ x ∧ x ≤ sp.x.toNat + 7) := by
  simp [Sprite.covers, Bool.decide_and, Bool.and_assoc]

/-- A pattern pixel is not 0 where either plane has its bit set. -/
theorem planePixel_ne_zero (hi lo : Byte) (b : Nat) :
    decide (planePixel hi lo b ≠ 0) = (hi.getLsbD b || lo.getLsbD b) := by
  unfold planePixel
  cases hi.getLsbD b <;> cases lo.getLsbD b <;> decide

section
variable {s : State} {l x : Nat}

theorem sprite0Check_skips (h : (s.ppu.s0Enabled && (s.ppu.sprite 0).covers l x) = false) :
    sprite0Check l x s = .ok () s := by
  rw [sprite0Check, h]
  rfl

/-- Inside the box with the four bits set, and the two pattern bytes readable, the check may set the flag. -/
theorem sprite0Check_tests {lo hi : Byte} (h : (s.ppu.s0Enabled && (s.ppu.sprite 0).covers l x) = true)
    (hlo : ppuPeek s (s.ppu.spriteRowAddr (s.ppu.sprite 0) (l - ((s.ppu.sprite 0).y.toNat + 1))) = some lo)
    (hhi : ppuPeek s (s.ppu.spriteRowAddr (s.ppu.sprite 0) (l - ((s.ppu.sprite 0).y.toNat + 1)) + 8) = some hi) :
    sprite0Check l x s = .ok () (s.mapPpu fun p => { p with
      s0hit := p.s0hit || (decide (planePixel hi lo ((s.ppu.sprite 0).planeBit (x - (s.ppu.sprite 0).x.toNat)) ≠ 0) &&
        !p.transparent l x) }) := by
  rw [sprite0Check, if_pos h]
  simp only [ppuRead_of_peek_some hhi, ppuRead_of_peek_some hlo, Res.bind_ok]

end

/-- Settles O44: the box and the mask bits choose the way, and the pixel and the background decide the flag. -/
theorem spriteZeroHit : Obligations.SpriteZeroHit := by
  intro s l x lo hi p y n at' sx inBox enabled row bit base
  have guard : (s.ppu.s0Enabled && (s.ppu.sprite 0).covers l x) = (enabled && inBox) := by
    rw [Sprite.covers_eq]
    rfl
  refine ⟨fun outside => sprite0Check_skips (guard.trans outside), fun inside hlo hhi => ?_⟩
  rw [← planePixel_ne_zero]
  exact sprite0Check_tests (guard.trans inside) hlo hhi

end Sys2Proof.Machine
end

section
/-! SUPPORT. The sprite compositor (46_ppu_rendering.md R496 to R499), seen from one pixel of the picture: each column, row and
sprite paints it or leaves it, the last painter wins, and the proof of O45. -/

namespace Sys2Proof.Machine

/-! ## Painting one pixel -/

/-- From p to q the pixel (l, x) takes the colour c, or keeps its own for none. That a written colour is read back needs the
pixel in the picture and the store canonical. -/
def Paints (l x : Nat) (c : Option (BitVec 6)) (p q : Ppu) : Prop :=
  c = none ∨ l < 240 ∧ Cells.Sized 0 61440 p.color → q.colorAt l x = c.getD (p.colorAt l x)

theorem Paints.refl (l x : Nat) (p : Ppu) : Paints l x none p p := fun _ => rfl

/-- Of two painters the later wins. -/
theorem Paints.trans {l x : Nat} {c d : Option (BitVec 6)} {p q r : Ppu} (h : Paints l x c p q)
    (kept : Cells.Sized 0 61440 p.color → Cells.Sized 0 61440 q.color) (k : Paints l x d q r) :
    Paints l x (d.or c) p r := by
  intro can
  rw [Option.or_eq_none_iff] at can
  rw [k (can.imp And.left fun ⟨hl, w⟩ => ⟨hl, kept w⟩), h (can.imp_left And.right), Option.getD_or]

/-- A list of operations paints with the last of its elements that paints. -/
theorem forEach_paints {α : Type} {f : α → State → Res Unit} {g : α → Option (BitVec 6)} {l x : Nat} {s0 : State}
    {as : List α}
    (paint : ∀ a ∈ as, ∀ s t u, ColorFrame s0 s → f a s = .ok u t → ColorFrame s t ∧ Paints l x (g a) s.ppu t.ppu)
    {s t : State} {u : Unit} (hs : ColorFrame s0 s) (h : Res.forEach f as s = .ok u t) :
    Paints l x (as.reverse.findSome? g) s.ppu t.ppu := by
  induction as generalizing s with
  | nil =>
    obtain ⟨-, rfl⟩ := Res.ok.inj h
    exact .refl l x _
  | cons a as ih =>
    obtain ⟨u', s1, h1, h2⟩ := Res.bind_eq_ok.1 h
    obtain ⟨frame, first⟩ := paint a List.mem_cons_self s s1 u' hs h1
    have rest := ih (fun b hb => paint b (List.mem_cons_of_mem a hb)) (hs.trans frame) h2
    rw [List.reverse_cons, List.findSome?_append, List.findSome?_singleton]
    exact first.trans frame.color rest

/-- Of rows or columns at rising places from a, only the one at b answers. -/
theorem findSome?_at_place {β : Type} (v : Option β) (a b n : Nat) :
    ((List.range n).reverse.findSome? fun k => if a + k = b then v else none) = if a ≤ b ∧ b < a + n then v else none := by
  induction n with
  | zero => rw [if_neg (by omega)]; rfl
  | succ n ih =>
    rw [List.range_succ, List.reverse_append, List.findSome?_append, ih, List.reverse_singleton, List.findSome?_singleton]
    by_cases h : a + n = b
    · rw [if_pos h, if_neg (by omega), if_pos (by omega), Option.or_none]
    · rw [if_neg h, Option.none_or]
      exact if_congr (by omega) rfl rfl

/-! ## One column (R496) -/

/-- The colour that a sprite row with these plane bytes shows in column x of line l: none where it is clipped, of value 0 or
behind the background. -/
def Sprite.rowColor (sp : Sprite) (l : Nat) (hi lo : Byte) (x : Nat) (p : Ppu) : Option (BitVec 6) :=
  let c := planePixel hi lo (sp.planeBit (x - sp.x.toNat))
  if (p.mask.getLsbD 2 = true ∨ 8 ≤ x) ∧ c ≠ 0 ∧ (sp.attr.getLsbD 5 = false ∨ p.transparent l x = true) then
    some (p.palRead (0x3F10 + 4 * (sp.attr.toNat % 4) + c))
  else none

theorem Ppu.colorAt_setColor_other {l d l' d' : Nat} (k : BitVec 6) (p : Ppu) (hd : d < 256) (hd' : d' < 256)
    (h : ¬(l' = l ∧ d' = d)) : (p.setColor l d k).colorAt l' d' = p.colorAt l' d' :=
  Cells.read_write_other _ fun e => h (pixelIndex_inj hd' hd e)

section
variable {l x line : Nat} {hi lo : Byte} {sp : Sprite}

theorem spritePixel_paints (hx : x < 256) (k : Nat) (p : Ppu) :
    Paints l x (if sp.x.toNat + k = x then if line = l then sp.rowColor l hi lo x p else none else none) p
      (p.spritePixel sp line hi lo k) := by
  by_cases here : sp.x.toNat + k = x ∧ line = l
  · obtain ⟨rfl, rfl⟩ := here
    rw [if_pos rfl, if_pos rfl]
    simp only [Sprite.rowColor, Ppu.spritePixel, hx, true_and, Nat.add_sub_cancel_left]
    split
    · rintro (no | ⟨-, w⟩)
      · cases no
      · exact (Ppu.colorAt_setColor _ p hx hx w.1).trans (if_pos ⟨rfl, rfl⟩)
    · exact .refl _ _ p
  · have none_here : (if sp.x.toNat + k = x then if line = l then sp.rowColor l hi lo x p else none else none) = none := by
      split
      · exact if_neg fun e => here ⟨by assumption, e⟩
      · rfl
    rw [none_here]
    unfold Ppu.spritePixel
    extract_lets col c
    split
    · rename_i drawn
      exact fun _ => Ppu.colorAt_setColor_other _ p drawn.1 hx fun e => here ⟨e.2.symm, e.1.symm⟩
    · exact .refl _ _ p

theorem rowColor_spritePixel (hl : line < 240) (k : Nat) (p : Ppu) :
    sp.rowColor l hi lo x (p.spritePixel sp line hi lo k) = sp.rowColor l hi lo x p := by
  rw [(spritePixel_color sp hi lo k p hl).1]
  rfl

theorem spriteColumns_paints (hx : x < 256) (hl : line < 240) (ks : List Nat) (p : Ppu) :
    Paints l x (ks.reverse.findSome? fun k =>
      if sp.x.toNat + k = x then if line = l then sp.rowColor l hi lo x p else none else none) p
      (p.spriteColumns sp line hi lo ks) := by
  induction ks generalizing p with
  | nil => exact .refl l x p
  | cons k ks ih =>
    have rest := ih (p.spritePixel sp line hi lo k)
    rw [rowColor_spritePixel hl] at rest
    rw [List.reverse_cons, List.findSome?_append, List.findSome?_singleton]
    exact (spritePixel_paints hx k p).trans (spritePixel_color sp hi lo k p hl).2 rest

/-! ## One row and one sprite (R496) -/

variable {s t : State} {u : Unit} {i r : Nat}

/-- What a sprite shows at a pixel of row r of its box, by the plane bytes of that row. -/
theorem spriteColor_of_row (hr : r < 8) (at_l : (s.ppu.sprite i).y.toNat + 1 + r = l)
    (hlo : ppuPeek s (s.ppu.spriteRowAddr (s.ppu.sprite i) r) = some lo)
    (hhi : ppuPeek s (s.ppu.spriteRowAddr (s.ppu.sprite i) r + 8) = some hi) :
    spriteColor s l x i =
      if (s.ppu.sprite i).x.toNat ≤ x ∧ x < (s.ppu.sprite i).x.toNat + 8 then (s.ppu.sprite i).rowColor l hi lo x s.ppu
      else none := by
  obtain ⟨top, bottom, line⟩ : (s.ppu.sprite i).y.toNat + 1 ≤ l ∧ l ≤ (s.ppu.sprite i).y.toNat + 8 ∧
      r = l - ((s.ppu.sprite i).y.toNat + 1) := by omega
  rw [line] at hlo hhi
  unfold spriteColor
  extract_lets p y n attr sx row bit base
  rw [show ppuPeek s base = some lo from hlo, show ppuPeek s (base + 8) = some hi from hhi]
  split
  · rename_i shown
    obtain ⟨_, _, left, right, clip, visible⟩ := shown
    rw [if_pos ⟨left, Nat.lt_succ_of_le right⟩]
    by_cases zero : planePixel hi lo bit = 0
    · exact (if_pos zero).trans (if_neg fun e => e.2.1 zero).symm
    · exact (if_neg zero).trans (if_pos ⟨clip, zero, visible⟩).symm
  · rename_i hidden
    split
    · rename_i box
      exact (if_neg fun e => hidden ⟨top, bottom, box.1, Nat.le_of_lt_succ box.2, e.1, e.2.2⟩).symm
    · rfl

theorem spriteColor_outside_rows
    (h : ¬((s.ppu.sprite i).y.toNat + 1 ≤ l ∧ l < (s.ppu.sprite i).y.toNat + 1 + 8)) : spriteColor s l x i = none :=
  if_neg fun ⟨top, bottom, _⟩ => h ⟨top, Nat.lt_succ_of_le bottom⟩

theorem spriteRow_paints (hx : x < 256) (hr : r < 8) (h : spriteRow (s.ppu.sprite i) r s = .ok u t) :
    Paints l x (if (s.ppu.sprite i).y.toNat + 1 + r = l then spriteColor s l x i else none) s.ppu t.ppu := by
  simp only [spriteRow] at h
  split at h
  · rename_i hl
    obtain ⟨lo, s1, h1, h⟩ := Res.bind_eq_ok.1 h
    obtain ⟨rfl, hlo⟩ := ppuRead_ok h1
    obtain ⟨hi, s2, h2, h⟩ := Res.bind_eq_ok.1 h
    obtain ⟨rfl, hhi⟩ := ppuRead_ok h2
    obtain ⟨-, rfl⟩ := Res.ok.inj h
    have columns := spriteColumns_paints (l := l) (hi := hi) (lo := lo) (sp := s2.ppu.sprite i) hx hl (List.range 8) s2.ppu
    rw [findSome?_at_place] at columns
    split
    · rename_i at_l
      rw [if_pos at_l] at columns
      rw [spriteColor_of_row hr at_l hlo hhi]
      exact columns
    · rename_i off_l
      rw [if_neg off_l, ite_self] at columns
      exact columns
  · rename_i below
    obtain ⟨-, rfl⟩ := Res.ok.inj h
    rintro (no | ⟨hl, -⟩)
    · rw [no]
      rfl
    · rw [if_neg fun at_l => below (at_l.trans_lt hl)]
      rfl

theorem compositeSprite_color (h : compositeSprite i s = .ok u t) : ColorFrame s t :=
  forEach_color (fun _ _ _ _ => spriteRow_color) _ h

theorem ColorFrame.sprite (h : ColorFrame s t) (i : Nat) : t.ppu.sprite i = s.ppu.sprite i := by
  rw [h.state]
  rfl

theorem ColorFrame.cart (h : ColorFrame s t) : t.cart = s.cart := by rw [h.state]

theorem compositeSprite_paints (hx : x < 256) (h : compositeSprite i s = .ok u t) :
    Paints l x (spriteColor s l x i) s.ppu t.ppu := by
  have rows := forEach_paints (l := l) (x := x) (s0 := s)
    (g := fun r => if (s.ppu.sprite i).y.toNat + 1 + r = l then spriteColor s l x i else none)
    (fun r hr s1 t1 u1 frame h1 => ?_) (.refl s) h
  · rw [findSome?_at_place] at rows
    by_cases inside : (s.ppu.sprite i).y.toNat + 1 ≤ l ∧ l < (s.ppu.sprite i).y.toNat + 1 + 8
    · rwa [if_pos inside] at rows
    · rw [if_neg inside] at rows
      rwa [spriteColor_outside_rows inside]
  · rw [← frame.sprite i] at h1 ⊢
    rw [← spriteColor_of_colorFrame frame]
    exact ⟨spriteRow_color h1, spriteRow_paints hx (List.mem_range.1 hr) h1⟩

/-! ## The compositor -/

theorem spritesByPriority_eq (o : SpriteOrder) : spritesByPriority o = (spriteSequence o).reverse := by
  cases o
  · rfl
  · exact (List.reverse_reverse _).symm

theorem mem_spritesByPriority (o : SpriteOrder) (h : i ∈ spritesByPriority o) : i < 64 := by
  cases o
  · exact List.mem_range.1 (List.mem_reverse.1 h)
  · exact List.mem_range.1 h

theorem composite_off (h : s.ppu.mask.getLsbD 4 = false) : composite s = .ok () s := by
  rw [composite, h]
  rfl

/-- With sprites enabled a pixel takes the colour of the sprite visited last among those that show there. -/
theorem composite_paints (hx : x < 256) (on : s.ppu.mask.getLsbD 4 = true) (h : composite s = .ok u t) :
    Paints l x ((spritesByPriority s.params.spriteOrder).findSome? (spriteColor s l x)) s.ppu t.ppu := by
  rw [composite, if_pos on] at h
  rw [spritesByPriority_eq]
  refine forEach_paints (fun i _ s1 t1 u1 frame h1 => ⟨compositeSprite_color h1, ?_⟩) (.refl s) h
  rw [← spriteColor_of_colorFrame frame]
  exact compositeSprite_paints hx h1

/-- A sprite shows nothing at a pixel that it does not cover, nor, behind, where the background is not transparent. -/
theorem spriteColor_hidden (h : (s.ppu.sprite i).covers l x = true →
    (s.ppu.sprite i).attr.getLsbD 5 = true ∧ s.ppu.transparent l x = false) : spriteColor s l x i = none := by
  refine if_neg fun ⟨top, bottom, left, right, _, visible⟩ => ?_
  have covered : (s.ppu.sprite i).covers l x = true := by
    simp only [Sprite.covers, Bool.and_eq_true, decide_eq_true_eq]
    exact ⟨⟨⟨top, bottom⟩, left⟩, right⟩
  obtain ⟨behind, solid⟩ := h covered
  rcases visible with front | clear
  · exact Bool.noConfusion (front.symm.trans behind)
  · exact Bool.noConfusion (clear.symm.trans solid)

/-! ## Completion (20_memory.md R112) -/

/-- With a CHR bank every read of the PPU space completes. -/
theorem ppuRead_with_bank (bank : 0 < s.cart.chrBanks) (a : Nat) : ∃ b, ppuRead a s = .ok b s := by
  refine ppuRead_completes ?_
  unfold Cart.chrSize
  omega

/-- Operations that each complete and keep a property complete one after the other. -/
theorem forEach_completes {α : Type} {f : α → State → Res Unit} {P : State → Prop}
    (each : ∀ a s, P s → ∃ t, f a s = .ok () t ∧ P t) (as : List α) (h : P s) : ∃ t, Res.forEach f as s = .ok () t ∧ P t := by
  induction as generalizing s with
  | nil => exact ⟨s, rfl, h⟩
  | cons a as ih =>
    obtain ⟨s1, h1, k1⟩ := each a s h
    rw [Res.forEach, h1]
    exact ih k1

theorem spriteRow_completes (sp : Sprite) (r : Nat) (bank : 0 < s.cart.chrBanks) : ∃ t, spriteRow sp r s = .ok () t := by
  simp only [spriteRow]
  split
  · obtain ⟨lo, hlo⟩ := ppuRead_with_bank bank (s.ppu.spriteRowAddr sp r)
    obtain ⟨hi, hhi⟩ := ppuRead_with_bank bank (s.ppu.spriteRowAddr sp r + 8)
    rw [hlo, Res.bind_ok, hhi]
    exact ⟨_, rfl⟩
  · exact ⟨s, rfl⟩

theorem compositeSprite_completes (i : Nat) (bank : 0 < s.cart.chrBanks) :
    ∃ t, compositeSprite i s = .ok () t ∧ 0 < t.cart.chrBanks := by
  refine forEach_completes (fun r s1 bank1 => ?_) _ bank
  obtain ⟨t, h⟩ := spriteRow_completes (s.ppu.sprite i) r bank1
  exact ⟨t, h, (spriteRow_color h).cart ▸ bank1⟩

theorem composite_completes (bank : 0 < s.cart.chrBanks) : ∃ t, composite s = .ok () t := by
  unfold composite
  split
  · obtain ⟨t, h, -⟩ := forEach_completes (fun i _ => compositeSprite_completes i) (spriteSequence s.params.spriteOrder) bank
    exact ⟨t, h⟩
  · exact ⟨s, rfl⟩

end

/-- Settles O45: the compositor paints with the last sprite that shows, and a sprite that is hidden paints nothing. -/
theorem compositorFrame : Obligations.CompositorFrame := by
  refine ⟨fun s t l x inv h on hl hx => ?_, fun s => composite_completes, fun s t h => ⟨(composite_color h).state, ?_, ?_⟩⟩
  · exact composite_paints hx on h (.inr ⟨hl, inv.ppu.color⟩)
  · intro off
    rw [composite_off off] at h
    exact (Res.ok.inj h).2.symm
  · intro l x hx hidden
    cases on : s.ppu.mask.getLsbD 4 with
    | false =>
      rw [composite_off on] at h
      rw [(Res.ok.inj h).2]
    | true =>
      have none_shows : (spritesByPriority s.params.spriteOrder).findSome? (spriteColor s l x) = none :=
        List.findSome?_eq_none_iff.2 fun i hi => spriteColor_hidden (hidden i (mem_spritesByPriority _ hi))
      have painted := composite_paints hx on h (l := l)
      rw [none_shows] at painted
      exact painted (.inl rfl)

end Sys2Proof.Machine
end

section
/-! SUPPORT. The dots (46_ppu_rendering.md R470 to R473, R490 to R492): what a dot does at (241, 1) and (261, 0), what it leaves
alone elsewhere, when it completes, and the position counted over a run; the proofs of O46 and O47. -/

namespace Sys2Proof.Machine

section
variable {s t : State} {u : Unit} {l d x : Nat}

/-! ## The two dots of VBlank (R490 to R492) -/

/-- The dot (241, 1) is the compositor and the start of VBlank. -/
theorem dotAt_vblank (s : State) : dotAt 241 1 s = (composite s).bind fun _ t => .ok () (vblankStart t) := by
  have start : s.mapPpu (Ppu.dotStart 241 1) = s := rfl
  have scroll : s.mapPpu (Ppu.scroll 241 1) = s := by
    simp only [State.mapPpu, Ppu.scroll]
    split <;> rfl
  simp only [dotAt, start]
  rw [if_neg (by decide), Res.bind_ok, if_neg (by decide), Res.bind_ok, scroll, if_pos (by decide)]

/-- The dot (261, 0) clears the two flags and is nothing else. -/
theorem dotAt_clear (s : State) : dotAt 261 0 s = .ok () (s.mapPpu Ppu.clearFlags) := by
  have start : s.mapPpu (Ppu.dotStart 261 0) = s.mapPpu Ppu.clearFlags := rfl
  have scroll (t : State) : t.mapPpu (Ppu.scroll 261 0) = t := by
    simp only [State.mapPpu, Ppu.scroll]
    split <;> rfl
  simp only [dotAt, start]
  rw [if_neg (by decide), Res.bind_ok, if_neg (by decide), Res.bind_ok, scroll, if_neg (by decide)]

/-! ## What every other dot leaves alone -/

/-- Only the PPU changes, and VBlank is not set. -/
structure QuietFrame (s t : State) : Prop where
  state : t = { s with ppu := t.ppu }
  vblank : t.ppu.vblank = true → s.ppu.vblank = true

theorem QuietFrame.refl (s : State) : QuietFrame s s := ⟨rfl, id⟩

theorem QuietFrame.trans {s t u : State} (h : QuietFrame s t) (k : QuietFrame t u) : QuietFrame s u :=
  ⟨by rw [k.state, h.state], fun v => h.vblank (k.vblank v)⟩

theorem QuietFrame.cart {s t : State} (h : QuietFrame s t) : t.cart = s.cart := by rw [h.state]

theorem dotStart_quiet (l d : Nat) (s : State) : QuietFrame s (s.mapPpu (Ppu.dotStart l d)) := by
  refine ⟨rfl, ?_⟩
  simp only [State.mapPpu_ppu, Ppu.dotStart, Ppu.clearFlags]
  split <;> split <;> simp

theorem scroll_quiet (l d : Nat) (s : State) : QuietFrame s (s.mapPpu (Ppu.scroll l d)) := by
  refine ⟨rfl, ?_⟩
  simp only [State.mapPpu_ppu, Ppu.scroll]
  split <;> exact id

theorem bgPixel_quiet (h : bgPixel l d s = .ok u t) : QuietFrame s t := by
  cases on : s.ppu.rendering with
  | false =>
    rw [bgPixel_off on] at h
    obtain ⟨-, rfl⟩ := Res.ok.inj h
    exact ⟨rfl, id⟩
  | true =>
    rw [bgPixel, if_pos on] at h
    obtain ⟨tile, s1, h1, h⟩ := Res.bind_eq_ok.1 h
    obtain ⟨rfl, -⟩ := ppuRead_ok h1
    obtain ⟨attr, s2, h2, h⟩ := Res.bind_eq_ok.1 h
    obtain ⟨rfl, -⟩ := ppuRead_ok h2
    obtain ⟨lo, s3, h3, h⟩ := Res.bind_eq_ok.1 h
    obtain ⟨rfl, -⟩ := ppuRead_ok h3
    obtain ⟨hi, s4, h4, h⟩ := Res.bind_eq_ok.1 h
    obtain ⟨rfl, -⟩ := ppuRead_ok h4
    obtain ⟨-, rfl⟩ := Res.ok.inj h
    refine ⟨rfl, ?_⟩
    rw [State.mapPpu_ppu, Ppu.drawBg_eq]
    exact id

theorem sprite0Check_quiet (h : sprite0Check l x s = .ok u t) : QuietFrame s t := by
  simp only [sprite0Check] at h
  split at h
  · obtain ⟨hi, s1, h1, h⟩ := Res.bind_eq_ok.1 h
    obtain ⟨rfl, -⟩ := ppuRead_ok h1
    obtain ⟨lo, s2, h2, h⟩ := Res.bind_eq_ok.1 h
    obtain ⟨rfl, -⟩ := ppuRead_ok h2
    obtain ⟨-, rfl⟩ := Res.ok.inj h
    exact ⟨rfl, id⟩
  · obtain ⟨-, rfl⟩ := Res.ok.inj h
    exact .refl s

/-- An operation done only under a condition leaves alone what it leaves alone when done. -/
theorem QuietFrame.ofIf {c : Prop} [Decidable c] {r : Res Unit} (done : c → r = .ok u t → QuietFrame s t)
    (h : (if c then r else .ok () s) = .ok u t) : QuietFrame s t := by
  split at h
  · exact done ‹c› h
  · obtain ⟨-, rfl⟩ := Res.ok.inj h
    exact .refl s

theorem dotAt_quiet (other : (l, d) ≠ (241, 1)) (h : dotAt l d s = .ok u t) : QuietFrame s t := by
  simp only [dotAt] at h
  obtain ⟨u2, s2, h2, h⟩ := Res.bind_eq_ok.1 h
  obtain ⟨u3, s3, h3, h⟩ := Res.bind_eq_ok.1 h
  rw [if_neg fun e => other (by rw [e.1, e.2])] at h
  obtain ⟨-, rfl⟩ := Res.ok.inj h
  have drawn := (dotStart_quiet l d s).trans (.ofIf (fun _ => bgPixel_quiet) h2)
  have checked := drawn.trans (.ofIf (fun _ => sprite0Check_quiet) h3)
  exact checked.trans (scroll_quiet l d s3)

/-! ## Completion (20_memory.md R112) -/

theorem bgPixel_completes (bank : 0 < s.cart.chrBanks) : ∃ t, bgPixel l d s = .ok () t := by
  unfold bgPixel
  split
  · obtain ⟨tile, htile⟩ := ppuRead_with_bank bank (ntAddr s.ppu.v)
    obtain ⟨attr, hattr⟩ := ppuRead_with_bank bank (atAddr s.ppu.v)
    obtain ⟨lo, hlo⟩ := ppuRead_with_bank bank
      (patternAddr (patternBase (s.ppu.ctrl.getLsbD 4)) tile (s.ppu.v.toNat / 0x1000))
    obtain ⟨hi, hhi⟩ := ppuRead_with_bank bank
      (patternAddr (patternBase (s.ppu.ctrl.getLsbD 4)) tile (s.ppu.v.toNat / 0x1000) + 8)
    simp only [htile, hattr, hlo, hhi, Res.bind_ok]
    exact ⟨_, rfl⟩
  · exact ⟨_, rfl⟩

theorem sprite0Check_completes (bank : 0 < s.cart.chrBanks) : ∃ t, sprite0Check l x s = .ok () t := by
  simp only [sprite0Check]
  split
  · obtain ⟨hi, hhi⟩ := ppuRead_with_bank bank
      (s.ppu.spriteRowAddr (s.ppu.sprite 0) (l - ((s.ppu.sprite 0).y.toNat + 1)) + 8)
    obtain ⟨lo, hlo⟩ := ppuRead_with_bank bank
      (s.ppu.spriteRowAddr (s.ppu.sprite 0) (l - ((s.ppu.sprite 0).y.toNat + 1)))
    rw [hhi, Res.bind_ok, hlo]
    exact ⟨_, rfl⟩
  · exact ⟨s, rfl⟩

/-- An operation done only under a condition completes where the operation does. -/
theorem completes_ofIf {c : Prop} [Decidable c] {r : Res Unit} (h : ∃ t, r = .ok () t) :
    ∃ t, (if c then r else .ok () s) = .ok () t := by
  split
  · exact h
  · exact ⟨s, rfl⟩

theorem dotAt_completes (bank : 0 < s.cart.chrBanks) : ∃ t, dotAt l d s = .ok () t := by
  have bank1 : 0 < (s.mapPpu (Ppu.dotStart l d)).cart.chrBanks := bank
  unfold dotAt
  extract_lets s1
  obtain ⟨s2, h2⟩ := completes_ofIf (c := l < 240 ∧ d < 256) (s := s1) (bgPixel_completes (l := l) (d := d) bank1)
  have bank2 : 0 < s2.cart.chrBanks := (QuietFrame.ofIf (fun _ => bgPixel_quiet) h2).cart ▸ bank1
  obtain ⟨s3, h3⟩ := completes_ofIf (c := l < 240 ∧ 2 ≤ d ∧ d ≤ 257) (s := s2)
    (sprite0Check_completes (l := l) (x := d - 2) bank2)
  have bank3 : 0 < s3.cart.chrBanks := (QuietFrame.ofIf (fun _ => sprite0Check_quiet) h3).cart ▸ bank2
  rw [h2, Res.bind_ok, h3, Res.bind_ok]
  obtain ⟨s5, h5⟩ := composite_completes (s := s3.mapPpu (Ppu.scroll l d)) bank3
  refine completes_ofIf ⟨vblankStart s5, ?_⟩
  rw [h5, Res.bind_ok]

theorem ppuRun_completes (n : Nat) (b : Bool) (bank : 0 < s.cart.chrBanks) : ∃ frame t, ppuRun n b s = .ok frame t := by
  induction n generalizing b s with
  | zero => exact ⟨b, s, rfl⟩
  | succ n ih =>
    obtain ⟨s1, h1⟩ := dotAt_completes (l := s.ppu.lines) (d := s.ppu.dots) bank
    have bank1 : 0 < (s1.mapPpu Ppu.advance).cart.chrBanks := (dotAt_frame h1).frame.cart ▸ bank
    rw [ppuRun, h1]
    exact ih (b || s1.ppu.lastDot) bank1

/-! ## The position (R470, R471) -/

section
variable {p : Ppu}

theorem Ppu.position_lt (hl : p.lines ≤ 261) (hd : p.dots ≤ 340) : p.position < 89342 := by
  unfold Ppu.position
  omega

theorem Ppu.lastDot_iff (hd : p.dots ≤ 340) : p.lastDot = true ↔ p.position + 1 = 89342 := by
  simp only [Ppu.lastDot, Ppu.position, Bool.and_eq_true, decide_eq_true_eq]
  omega

theorem Ppu.advance_position (hl : p.lines ≤ 261) (hd : p.dots ≤ 340) :
    p.advance.lines ≤ 261 ∧ p.advance.dots ≤ 340 ∧ p.advance.position = (p.position + 1) % 89342 := by
  simp only [Ppu.advance, Ppu.position]
  split
  · split <;> simp only <;> omega
  · simp only
    omega

end

/-- A run moves the position by its dots, modulo the frame, and reports a frame when it passes the last dot. -/
theorem ppuRun_position {n : Nat} {b frame : Bool} (hl : s.ppu.lines ≤ 261) (hd : s.ppu.dots ≤ 340)
    (h : ppuRun n b s = .ok frame t) :
    (frame = true ↔ b = true ∨ 89342 ≤ s.ppu.position + n) ∧ t.ppu.lines ≤ 261 ∧ t.ppu.dots ≤ 340 ∧
      t.ppu.position = (s.ppu.position + n) % 89342 := by
  have inFrame := Ppu.position_lt hl hd
  induction n generalizing b s with
  | zero =>
    obtain ⟨rfl, rfl⟩ := Res.ok.inj h
    exact ⟨(or_iff_left (by omega)).symm, hl, hd, (Nat.mod_eq_of_lt inFrame).symm⟩
  | succ n ih =>
    obtain ⟨u, s1, h1, h2⟩ := Res.bind_eq_ok.1 h
    have kept := (dotAt_frame h1).kept
    have pos : s1.ppu.position = s.ppu.position := by rw [Ppu.position, kept.lines, kept.dots, Ppu.position]
    have last := Ppu.lastDot_iff (kept.dots.trans_le hd)
    obtain ⟨al, ad, ap⟩ := Ppu.advance_position (kept.lines.trans_le hl) (kept.dots.trans_le hd)
    obtain ⟨reports, tl, td, tp⟩ := ih al ad h2 (Ppu.position_lt al ad)
    rw [State.mapPpu_ppu, ap, pos] at reports tp
    rw [Bool.or_eq_true, last, pos] at reports
    refine ⟨reports.trans ?_, tl, td, tp.trans ?_⟩
    · rw [or_assoc]
      exact or_congr_right (by omega)
    · omega

end

/-- Settles O46: (241, 1) and (261, 0) by their equations, every other dot by what it leaves alone. -/
theorem vblankAndNmi : Obligations.VblankAndNmi := by
  refine ⟨fun s s1 h => ?_, dotAt_clear, fun s t l d other h => ?_⟩
  · have ctrl : s1.ppu.ctrl = s.ppu.ctrl := by rw [(composite_color h).state]
    have pc : s1.cpu.pc = s.cpu.pc := by rw [(composite_color h).state]
    rw [dotAt_vblank, h, Res.bind_ok, ← ctrl, ← pc]
    rfl
  · have quiet := dotAt_quiet other h
    rw [quiet.state]
    exact ⟨rfl, rfl, rfl, quiet.vblank⟩

/-- Settles O47: the position counts the dots, and 89342 of them bring it back. -/
theorem frameOfDots : Obligations.FrameOfDots := by
  refine ⟨fun s t n frame hl hd _ h => ?_, fun s n => ppuRun_completes n false⟩
  obtain ⟨reports, tl, td, tp⟩ := ppuRun_position hl hd h
  have reports' : frame = true ↔ 89342 ≤ s.ppu.position + n := by simpa using reports
  refine ⟨reports', tp, fun whole => ⟨reports'.2 (by omega), ?_⟩⟩
  have inFrame := Ppu.position_lt hl hd
  unfold Ppu.position at tp inFrame
  omega

end Sys2Proof.Machine
end

section
/-! SUPPORT. The APU's registers through the CPU bus (47_apu.md R570 to R586): a write of one is `Apu.write`, and the periods,
the status bits and the sample start as R572, R573, R586 and R602 write them; the proofs of O52 and O53. -/

namespace Sys2Proof.Machine

/-! ## The registers' formulas -/

/-- R572, R575: the low byte of a period goes under a mask of its high three bits. -/
theorem periodLow_eq_mask (p : BitVec 11) (d : Byte) : periodLow p d = (p &&& 0x700#11) ||| d.setWidth 11 := by
  refine BitVec.eq_of_getLsbD_eq fun i hi => ?_
  rw [periodLow, BitVec.getLsbD_append]
  interval_cases i <;> simp

/-- R573, R576: the high three bits of a period go over a mask of its low byte. -/
theorem periodHigh_eq_mask (p : BitVec 11) (d : Byte) :
    periodHigh p d = (p &&& 0x0FF#11) ||| ((d.setWidth 11 &&& 7#11) <<< 8) := by
  refine BitVec.eq_of_getLsbD_eq fun i hi => ?_
  rw [periodHigh, BitVec.getLsbD_append]
  interval_cases i <;> simp

theorem toNat_eq_zero_iff {w : Nat} {x : BitVec w} : x.toNat = 0 ↔ x = 0 := by
  simp [← BitVec.toNat_inj]

theorem toNat_pos_iff {w : Nat} {x : BitVec w} : 0 < x.toNat ↔ x ≠ 0 :=
  Nat.pos_iff_ne_zero.trans (not_congr toNat_eq_zero_iff)

/-- R602: the start of a sample in 16-bit and 12-bit arithmetic. -/
theorem Dmc.sampleStart_eq (c : Dmc) : c.sampleStart =
    { c with
      curAddr := 0xC000 + 64 * c.addrReg.setWidth 16
      remaining := 16 * c.lenReg.setWidth 12 + 1 } := by
  have addr : BitVec.ofNat 16 (64 * c.addrReg.toNat) = 64 * c.addrReg.setWidth 16 := by bv_omega
  have len : BitVec.ofNat 12 (16 * c.lenReg.toNat + 1) = 16 * c.lenReg.setWidth 12 + 1 := by bv_omega
  rw [Dmc.sampleStart, addr, len]
  rfl

/-- R584: off, the sample stops; on, it starts when none is left. -/
theorem Dmc.enable_eq (on : Bool) (c : Dmc) :
    c.enable on = if on = false then { c with remaining := 0 } else if c.remaining = 0 then c.sampleStart else c := by
  cases on <;> rfl

/-! ## Through the bus -/

variable {s : State} {d : Byte}

/-- From 0x4000 to 0x401F every register but the DMA kick and the strobe is the APU's (20_memory.md R108). -/
theorem busWrite_apu (r : Nat) (h : r < 0x20 ∧ r ≠ 0x14 ∧ r ≠ 0x16) :
    busWrite (BitVec.ofNat 16 (0x4000 + r)) d s = .ok () (s.mapApu (Apu.write r d)) := by
  obtain ⟨range, dma, strobe⟩ := h
  have addr : (BitVec.ofNat 16 (0x4000 + r)).toNat = 0x4000 + r := Nat.mod_eq_of_lt (by omega)
  rw [busWrite_io (by omega) (by omega), addr, Nat.add_sub_cancel_left, ioWrite]
  · exact dma
  · exact strobe

/-- 0x4015 is the one APU register that a read gives (R586; 20_memory.md R109). -/
theorem busRead_status : busRead 0x4015 s = .ok (s.apu.statusByte ((drawn s).getLsbD 0)) s.afterDraw := by
  have index : (0x4015 : Word).toNat - 0x4000 = 0x15 := rfl
  rw [busRead_io (by decide) (by decide), index, ioRead]

/-- Settles O52: each register is one case of `Apu.write`; the periods' low bytes are `periodLow`. -/
theorem apuRegisterWrites : Obligations.ApuRegisterWrites := by
  intro s d a env low sq0 sq1 sq2 put
  refine ⟨busWrite_apu 0 (by decide), busWrite_apu 4 (by decide), busWrite_apu 1 (by decide), busWrite_apu 5 (by decide),
    ?_, ?_, busWrite_apu 8 (by decide), ?_, busWrite_apu 12 (by decide), busWrite_apu 14 (by decide),
    busWrite_apu 16 (by decide), busWrite_apu 17 (by decide), busWrite_apu 18 (by decide), busWrite_apu 19 (by decide),
    busWrite_apu 9 (by decide), busWrite_apu 13 (by decide)⟩
  all_goals simp only [sq2, low, put, ← periodLow_eq_mask]
  · exact busWrite_apu 2 (by decide)
  · exact busWrite_apu 6 (by decide)
  · exact busWrite_apu 10 (by decide)

/-- Settles O53: each register is one case of `Apu.write`, with the formulas of the high period bits, the sample start and the
status bits. -/
theorem apuControlRegisters : Obligations.ApuControlRegisters := by
  intro s d a len high sq3 put
  have length : len = lengthOf d := rfl
  refine ⟨?_, ?_, ?_, ?_, ?_, ?_⟩
  · simp only [sq3, length, high, put, ← periodHigh_eq_mask]
    exact busWrite_apu 3 (by decide)
  · simp only [sq3, length, high, put, ← periodHigh_eq_mask]
    exact busWrite_apu 7 (by decide)
  · simp only [length, high, put, ← periodHigh_eq_mask]
    exact busWrite_apu 11 (by decide)
  · simp only [length, put]
    exact busWrite_apu 15 (by decide)
  · simp only [put, ← Dmc.sampleStart_eq, ← Dmc.enable_eq]
    exact busWrite_apu 0x15 (by decide)
  · simp only [gt_iff_lt, toNat_pos_iff]
    exact busRead_status

end Sys2Proof.Machine
end

section
/-! SUPPORT. The frame sequencer (47_apu.md R560 to R564) and what it clocks: the envelopes, the linear counter, the length
counters and the sweeps (R547 to R556); the proof of O54. -/

namespace Sys2Proof.Machine

/-! ## A tick (R560 to R562) -/

theorem Apu.frameTick_count {n : Nat} {a : Apu} (h : a.fs.counter + 1 < n) :
    a.frameTick n = { a with fs := { a.fs with counter := a.fs.counter + 1 } } := by
  rw [Apu.frameTick, if_neg (by omega)]

theorem Apu.frameTick_event {n : Nat} {a : Apu} (h : n ≤ a.fs.counter + 1) :
    a.frameTick n = { a.stepEvent a.fs.mode a.fs.step with
      fs := { a.fs with counter := 0, step := (a.fs.step + 1) % (if a.fs.mode then 5 else 4) } } := by
  obtain ⟨-, -, fs, -⟩ := Apu.stepEvent_parts a.fs.mode a.fs.step a
  rw [Apu.frameTick, if_pos h]
  dsimp only
  rw [fs]

theorem Apu.stepEvent_fourStep {step : Nat} (a : Apu) :
    a.stepEvent false step = if step = 1 ∨ step = 3 then a.quarterFrame.halfFrame else a.quarterFrame := by
  simp [Apu.stepEvent, quarterAt, halfAt]

theorem Apu.stepEvent_fiveStep {step : Nat} (a : Apu) :
    a.stepEvent true step = if step = 1 ∨ step = 4 then a.quarterFrame.halfFrame
      else if step = 3 then a else a.quarterFrame := by
  by_cases half : step = 1 ∨ step = 4
  · have quarter : step ≠ 3 := by omega
    simp [Apu.stepEvent, quarterAt, halfAt, half, quarter]
  · simp [Apu.stepEvent, quarterAt, halfAt, half]

/-- The step after one within a mode whose last step is `last`. -/
theorem succ_mod_of_le {step last : Nat} (h : step ≤ last) :
    (step + 1) % (last + 1) = if step = last then 0 else step + 1 := by
  split
  · next e => rw [e, Nat.mod_self]
  · exact Nat.mod_eq_of_lt (by omega)

/-! ## What a quarter frame and a half frame clock (R547 to R556) -/

theorem Envelope.clock_eq (e : Envelope) : e.clock =
    if e.start then { e with start := false, decay := 15, div := e.vol }
    else if e.div.toNat = 0 then
      { e with div := e.vol, decay := if 0 < e.decay.toNat then e.decay - 1 else if e.halt then 15 else 0 }
    else { e with div := e.div - 1 } := by
  simp only [Envelope.clock, toNat_eq_zero_iff, toNat_pos_iff]
  by_cases zero : e.decay = 0
  · simp only [zero]
  · simp only [if_pos zero]

theorem Triangle.clockLinear_eq (t : Triangle) : t.clockLinear = { t with
    linear := if t.linReload then t.linReloadVal else t.linear - if 0 < t.linear.toNat then 1 else 0
    linReload := t.linReload && t.control } := by
  have linear : t.linear - (if t.linear ≠ 0 then 1 else 0) = if t.linear ≠ 0 then t.linear - 1 else t.linear := by
    split
    · rfl
    · exact BitVec.sub_zero _
  have reload : (t.linReload && t.control) = if t.control then t.linReload else false := by
    cases t.control
    · exact Bool.and_false _
    · exact Bool.and_true _
  rw [Triangle.clockLinear, reload]
  simp only [toNat_pos_iff, linear]

theorem lengthClock_eq (halted : Bool) (len : Byte) :
    lengthClock halted len = if halted = false ∧ 0 < len.toNat then len - 1 else len := by
  cases halted <;> simp [lengthClock, toNat_pos_iff]

/-- R547: the change is a shift. -/
theorem Square.target_eq (ones : Bool) (q : Square) : q.target ones =
    if q.swNeg then (q.period.toNat : Int) - (q.period.toNat >>> q.swShift.toNat : Nat) - (if ones then 1 else 0)
    else (q.period.toNat : Int) + (q.period.toNat >>> q.swShift.toNat : Nat) := by
  rw [Nat.shiftRight_eq_div_pow]
  rfl

theorem Square.muted_eq (ones : Bool) (q : Square) :
    q.muted ones = decide (q.period.toNat < 8 ∨ q.target ones > 0x7FF) := (Bool.decide_or _ _).symm

theorem Square.clockSweep_eq (ones : Bool) (q : Square) : q.clockSweep ones = { q with
    period :=
      if q.swDiv.toNat = 0 ∧ q.swEn = true ∧ 0 < q.swShift.toNat ∧ q.muted ones = false then BitVec.ofInt 11 (q.target ones)
      else q.period
    swDiv := if q.swDiv.toNat = 0 ∨ q.swReload = true then q.swPeriod else q.swDiv - 1
    swReload := false } := by
  simp only [toNat_eq_zero_iff, toNat_pos_iff]
  have period : (if q.swDiv = 0 ∧ q.swEn = true ∧ q.swShift ≠ 0 ∧ q.muted ones = false then
      { q with period := BitVec.ofInt 11 (q.target ones) } else q) =
      { q with period := if q.swDiv = 0 ∧ q.swEn = true ∧ q.swShift ≠ 0 ∧ q.muted ones = false then
        BitVec.ofInt 11 (q.target ones) else q.period } := by
    split <;> rfl
  rw [Square.clockSweep, period]
  by_cases reload : q.swDiv = 0 ∨ q.swReload = true
  · rw [if_pos reload, if_pos reload]
  · have quiet : q.swReload = false := Bool.eq_false_iff.2 (not_or.1 reload).2
    rw [if_neg reload, if_neg reload, quiet]

/-- Settles O54: the tick by its two cases and the events of each mode, the $4017 write as a case of `Apu.write`, the quarter and
half frames by the equations of what they clock. -/
theorem frameSequencerTick : Obligations.FrameSequencerTick := by
  refine ⟨fun n a => ⟨Apu.frameTick_count, fun h mode step => ?_, fun h mode step => ?_⟩, fun s d => ?_, ?_, ?_⟩
  · rw [Apu.frameTick_event h, mode, Apu.stepEvent_fourStep, ← succ_mod_of_le step]
    rfl
  · rw [Apu.frameTick_event h, mode, Apu.stepEvent_fiveStep, ← succ_mod_of_le step]
    rfl
  · exact busWrite_apu 0x17 (by decide)
  · intro a env
    simp only [env, ← Envelope.clock_eq, ← Triangle.clockLinear_eq]
    rfl
  · intro a len target muted sweep
    have targetOne : target 1 = Square.target true := funext fun q => (Square.target_eq true q).symm
    have targetZero : target 0 = Square.target false := funext fun q => (Square.target_eq false q).symm
    simp only [sweep, len, muted, targetOne, targetZero, ← lengthClock_eq, ← Square.muted_eq]
    rw [Apu.halfFrame, Square.clockSweep_eq, Square.clockSweep_eq]
    rfl

end Sys2Proof.Machine
end

section
/-! SUPPORT. The APU's timers as countdowns (47_apu.md R545, R555, R558, R600), the DMC's output unit and its DMA fetch (R601 to
R604; 20_memory.md R123), and one APU cycle (R540); the proof of O55. -/

namespace Sys2Proof.Machine

/-! ## A timer counts down and reloads -/

/-- A clock that takes a timer t ≠ 0 to t − 1, k times over; c t is the channel with its timer at t. -/
theorem repeat_countdown {α : Type} {w : Nat} {f : α → α} {c : BitVec w → α} (down : ∀ t, t ≠ 0 → f (c t) = c (t - 1))
    {t : BitVec w} {k : Nat} (h : k ≤ t.toNat) : Nat.repeat f k (c t) = c (t - BitVec.ofNat w k) := by
  induction k with
  | zero => exact congrArg c (BitVec.sub_zero t).symm
  | succ k ih =>
    have left : t - BitVec.ofNat w k ≠ 0 := fun zero => by
      have reached : t.toNat = k % 2 ^ w := by rw [sub_eq_zero.1 zero, BitVec.toNat_ofNat]
      have := Nat.mod_le k (2 ^ w)
      omega
    rw [Nat.repeat, ih (by omega), down _ left, BitVec.ofNat_add, BitVec.sub_sub]
    rfl

/-- The countdown, and the clock after its last one, which is a clock at 0. -/
theorem timer_countdown {α : Type} {w : Nat} {f : α → α} {c : BitVec w → α} (down : ∀ t, t ≠ 0 → f (c t) = c (t - 1))
    {t : BitVec w} {k : Nat} (h : k ≤ t.toNat) :
    Nat.repeat f k (c t) = c (t - BitVec.ofNat w k) ∧ Nat.repeat f (t.toNat + 1) (c t) = f (c 0) := by
  refine ⟨repeat_countdown down h, ?_⟩
  rw [Nat.repeat, repeat_countdown down le_rfl, BitVec.ofNat_toNat, BitVec.setWidth_eq, BitVec.sub_self]
  rfl

theorem Square.clockTimer_down (q : Square) (t : BitVec 11) (h : t ≠ 0) :
    Square.clockTimer { q with timer := t } = { q with timer := t - 1 } := if_neg h

theorem Triangle.clockTimer_down (c : Triangle) (t : BitVec 11) (h : t ≠ 0) :
    Triangle.clockTimer { c with timer := t } = { c with timer := t - 1 } := if_neg h

theorem Noise.clockTimer_down (c : Noise) (t : BitVec 12) (h : t ≠ 0) :
    Noise.clockTimer { c with timer := t } = { c with timer := t - 1 } := if_neg h

theorem Dmc.clockTimer_down (c : Dmc) (t : BitVec 9) (h : t ≠ 0) :
    Dmc.clockTimer { c with timer := t } = { c with timer := t - 1 } := if_neg h

/-- R558: the feedback bit goes into bit 14 of the shifted register. -/
theorem Noise.clockTimer_reload (c : Noise) (h : c.timer = 0) : c.clockTimer = { c with
    timer := BitVec.ofNat 12 (noisePeriodTable.getD c.periodIdx.toNat 0 / 2 - 1)
    shift := (c.shift >>> 1) |||
      ((BitVec.ofBool (c.shift.getLsbD 0 ^^ c.shift.getLsbD (if c.mode then 6 else 1))).setWidth 15 <<< 14) } := by
  have shift : ∀ fb, BitVec.ofBool fb ++ c.shift.extractLsb' 1 14 =
      (c.shift >>> 1) ||| ((BitVec.ofBool fb).setWidth 15 <<< 14) := by
    refine fun fb => BitVec.eq_of_getLsbD_eq fun i hi => ?_
    rw [BitVec.getLsbD_append]
    interval_cases i <;> simp
  rw [Noise.clockTimer, if_pos h, shift, Noise.feedback, apply_ite c.shift.getLsbD]

/-! ## The DMC's output unit (R601) -/

/-- The output level after an output clock: 2 up or down within 0 to 127, unless silent. -/
def Dmc.nextLevel (c : Dmc) : BitVec 7 :=
  if c.silence then c.level
  else if c.shift.getLsbD 0 then (if c.level.toNat ≤ 125 then c.level + 2 else c.level)
  else if 2 ≤ c.level.toNat then c.level - 2 else c.level

theorem Dmc.outputClock_eq (c : Dmc) : c.outputClock =
    let d := { c with level := c.nextLevel, shift := c.shift >>> 1, bitsLeft := c.bitsLeft - 1 }
    if c.bitsLeft = 1 then
      if c.bufEmpty then { d with bitsLeft := 8, silence := true }
      else { d with bitsLeft := 8, silence := false, shift := c.buffer, bufEmpty := true }
    else d := by
  have level : (if c.silence then c
      else if c.shift.getLsbD 0 then { c with level := if c.level.toNat ≤ 125 then c.level + 2 else c.level }
      else { c with level := if 2 ≤ c.level.toNat then c.level - 2 else c.level }) = { c with level := c.nextLevel } := by
    unfold Dmc.nextLevel
    split
    · rfl
    · split <;> rfl
  have last : c.bitsLeft - 1 = 0 ↔ c.bitsLeft = 1 := sub_eq_zero
  rw [Dmc.outputClock, level]
  simp only [last]

/-! ## The DMC's fetch (R603, R604) -/

theorem Dmc.fetched_eq (b : Byte) (c : Dmc) :
    let next := { c with buffer := b, bufEmpty := false, remaining := c.remaining - 1, curAddr := dmcNextAddr c.curAddr }
    c.fetched b = if c.remaining = 1 ∧ c.loop = true then next.sampleStart else next := by
  have last : c.remaining - 1 = 0 ↔ c.remaining = 1 := sub_eq_zero
  simp only [Dmc.fetched, last]

theorem dmcFetchCheck_fetch {s s1 : State} {b : Byte} (empty : s.apu.dmc.bufEmpty = true) (left : s.apu.dmc.remaining ≠ 0)
    (read : busRead s.apu.dmc.curAddr s = .ok b s1) : dmcFetchCheck s = .ok () { s1 with
      emu := { s.emu with pendingCycles := s.emu.pendingCycles + 4 }
      apu := { s.apu with dmc := s.apu.dmc.fetched b } } := by
  have frame := busRead_frame read
  rw [dmcFetchCheck, if_pos ⟨empty, left⟩, read, Res.bind_ok, ← frame.emu, ← frame.apu]
  rfl

theorem dmcFetchCheck_idle {s : State} (h : s.apu.dmc.bufEmpty = false ∨ s.apu.dmc.remaining = 0) :
    dmcFetchCheck s = .ok () s := by
  rw [dmcFetchCheck, if_neg]
  rintro ⟨empty, left⟩
  exact h.elim (fun full => Bool.false_ne_true (full.symm.trans empty)) left

/-! ## One APU cycle (R540) -/

theorem Apu.frameTick_cycle (n : Nat) (a : Apu) : (a.frameTick n).cycle = a.cycle := by
  unfold Apu.frameTick
  split
  · obtain ⟨-, -, -, cycle⟩ := Apu.stepEvent_parts a.fs.mode a.fs.step a
    exact cycle
  · rfl

theorem Apu.tick_eq (n : Nat) (a : Apu) : let b := a.frameTick n
    let odd := decide (a.cycle % 2 = 1)
    a.tick n = { b with
      tri := b.tri.clockTimer
      dmc := b.dmc.clockTimer
      sq1 := if odd then b.sq1.clockTimer else b.sq1
      sq2 := if odd then b.sq2.clockTimer else b.sq2
      noise := if odd then b.noise.clockTimer else b.noise
      cycle := a.cycle + 1 } := by
  simp only [Apu.tick, Apu.frameTick_cycle, decide_eq_true_eq]
  split <;> rfl

/-- Settles O55: the fetch and the output unit by their equations, each timer as a countdown, the cycle by its parity. -/
theorem dmcFetch : Obligations.DmcFetch := by
  refine ⟨fun s s1 b empty left read => ?_, fun s => dmcFetchCheck_idle, fun q k h => ?_, fun c k h => ?_, fun c k h => ?_,
    fun c k h => ?_, fun c => ?_, Apu.tick_eq⟩
  · rw [dmcFetchCheck_fetch empty left read, Dmc.fetched_eq, Dmc.sampleStart_eq]
    rfl
  · exact timer_countdown q.clockTimer_down h
  · simp only [toNat_pos_iff]
    exact timer_countdown c.clockTimer_down h
  · exact (timer_countdown c.clockTimer_down h).imp_right fun reload => reload.trans (Noise.clockTimer_reload _ rfl)
  · exact timer_countdown c.clockTimer_down h
  · rw [Dmc.outputClock_eq]
    refine ⟨fun more => if_neg more, fun last empty => ?_, fun last full => ?_⟩
    · rw [if_pos last, if_pos empty]
      rfl
    · rw [if_pos last, if_neg (by rw [full]; exact Bool.false_ne_true)]
      rfl

end Sys2Proof.Machine
end

section
/-! SUPPORT. The controllers through the CPU bus (48_controllers_cassette.md R632, R633): the strobe write and the three ways of a
read; the proof of O49. -/

namespace Sys2Proof.Machine

/-! ## The strobe (R632) -/

theorem busWrite_strobe (d : Byte) (s : State) : busWrite 0x4016 d s = .ok () (s.mapCtl (Ctl.writeStrobe d)) := by
  have index : (0x4016 : Word).toNat - 0x4000 = 0x16 := rfl
  rw [busWrite_io (by decide) (by decide), index, ioWrite]

theorem Ctl.writeStrobe_strobe (d : Byte) (c : Ctl) : (c.writeStrobe d).strobe = d.getLsbD 0 := by
  unfold Ctl.writeStrobe
  split <;> rfl

/-- While the old or the new strobe is 1 both controllers latch. -/
theorem Ctl.writeStrobe_latches {d : Byte} {c : Ctl} (h : d.getLsbD 0 = true ∨ c.strobe = true) :
    c.writeStrobe d = { pad0 := c.pad0.latch, pad1 := c.pad1.latch, strobe := d.getLsbD 0 } :=
  if_pos (Bool.or_eq_true_iff.2 h)

theorem Ctl.writeStrobe_keeps {d : Byte} {c : Ctl} (h : ¬(d.getLsbD 0 = true ∨ c.strobe = true)) :
    c.writeStrobe d = { c with strobe := d.getLsbD 0 } :=
  if_neg fun e => h (Bool.or_eq_true_iff.1 e)

/-! ## A read (R633) -/

theorem busRead_pad0 (s : State) : busRead 0x4016 s = readPad0 s := by
  have index : (0x4016 : Word).toNat - 0x4000 = 0x16 := rfl
  rw [busRead_io (by decide) (by decide), index, ioRead]

theorem busRead_pad1 (s : State) : busRead 0x4017 s = readPad1 s := by
  have index : (0x4017 : Word).toNat - 0x4000 = 0x17 := rfl
  rw [busRead_io (by decide) (by decide), index, ioRead]

theorem padByte_bit0 (r : Byte) (b : Bool) : (padByte r b).getLsbD 0 = b := by
  rw [padByte, BitVec.getLsbD_append]
  cases b <;> rfl

theorem padByte_high (r : Byte) (b : Bool) : (padByte r b).extractLsb' 1 7 = r.extractLsb' 1 7 :=
  BitVec.extractLsb'_append_eq_left

/-- The three ways of a read of one controller, `put` placing it in the pair: with the strobe high the live A button, in the
first eight reads the next latched button, after them a bit of the oracle; bits 7:1 are always the oracle's. -/
theorem Pad.read_cases {p : Pad} {c : Ctl} {put : Pad → Ctl} (hput : put p = c) (strobe : Bool) (r0 r1 : Byte) :
    let b := padByte r1 (p.readBit strobe (r0.getLsbD 0))
    let c' := put (p.afterRead strobe)
    (strobe = true → b.getLsbD 0 = p.buttons.getLsbD 0 ∧ c' = c) ∧
    (strobe = false → p.index < 8 → b.getLsbD 0 = p.shift.getLsbD p.index ∧ c' = put { p with index := p.index + 1 }) ∧
    (strobe = false → 8 ≤ p.index → b.getLsbD 0 = r0.getLsbD 0 ∧ c' = c) ∧ b.extractLsb' 1 7 = r1.extractLsb' 1 7 := by
  intro b c'
  have bit : b.getLsbD 0 = p.readBit strobe (r0.getLsbD 0) := padByte_bit0 r1 _
  rw [bit]
  refine ⟨fun high => ?live, fun low left => ?latched, fun low done => ?spent, padByte_high r1 _⟩
  case live =>
    subst high
    exact ⟨rfl, hput⟩
  case latched =>
    subst low
    exact ⟨if_pos left, congrArg put (if_pos (decide_eq_true left))⟩
  case spent =>
    subst low
    have spent : ¬p.index < 8 := Nat.not_lt.2 done
    exact ⟨if_neg spent, (congrArg put (if_neg (by simp [done]))).trans hput⟩

/-- Settles O49: the strobe write latches or does not, and each controller is read in one of the three ways. -/
theorem controllerPorts : Obligations.ControllerPorts := by
  refine ⟨fun s d => ⟨_, busWrite_strobe d s, rfl, Ctl.writeStrobe_strobe d s.ctl, (Ctl.writeStrobe_buttons d s.ctl).1,
    (Ctl.writeStrobe_buttons d s.ctl).2, ?latches⟩, fun s second => ?read⟩
  case latches =>
    rw [State.mapCtl_ctl]
    split
    case isTrue h =>
      rw [Ctl.writeStrobe_latches h]
      exact ⟨rfl, rfl, rfl, rfl⟩
    case isFalse h =>
      rw [Ctl.writeStrobe_keeps h]
      exact ⟨rfl, rfl⟩
  case read =>
    cases second with
    | false =>
      obtain ⟨live, latched, spent, high⟩ :=
        Pad.read_cases (put := fun p => { s.ctl with pad0 := p }) rfl s.ctl.strobe (drawn s) (drawn s.afterDraw)
      exact ⟨_, _, busRead_pad0 s, live, latched, spent, high, rfl⟩
    | true =>
      obtain ⟨live, latched, spent, high⟩ :=
        Pad.read_cases (put := fun p => { s.ctl with pad1 := p }) rfl s.ctl.strobe (drawn s) (drawn s.afterDraw)
      exact ⟨_, _, busRead_pad1 s, live, latched, spent, high, rfl⟩

end Sys2Proof.Machine
end

section
/-! SUPPORT. The cassette (48_controllers_cassette.md R640 to R643): which buffers are accepted, their slices read back, and the
mirroring of PRG ROM; the proofs of O50 and O51. -/

namespace Sys2Proof.Machine

/-! ## The slices of a buffer (R640) -/

/-- A store built from bytes lies within any size that the bytes fit in. -/
theorem Memory.below_ofBytes {k n : Nat} {l : List Byte} (h : k + l.length ≤ n) :
    Cells.below n (Memory.ofBytes k l) = true := by
  induction l generalizing k with
  | nil => rfl
  | cons b l ih =>
    rw [List.length_cons] at h
    have tail := ih (k := k + 1) (by omega)
    rw [Memory.ofBytes]
    split
    · exact tail
    · exact Bool.and_eq_true_iff.2 ⟨decide_eq_true (by omega), tail⟩

theorem sized_bufferSlice (buffer : List Byte) (first n : Nat) :
    Cells.Sized Memory.unlisted n (Memory.ofBytes 0 (bufferSlice buffer first n)) :=
  ⟨Memory.wf_ofBytes _, Memory.below_ofBytes ((Nat.zero_add _).trans_le (List.length_take_le n _))⟩

/-- A slice's store reads as the buffer from the slice's start. -/
theorem read_bufferSlice {buffer : List Byte} {first n o : Nat} (h : o < n) :
    Memory.read (Memory.ofBytes 0 (bufferSlice buffer first n)) o = buffer.getD (first + o) 0 := by
  have read := Memory.read_ofBytes 0 (bufferSlice buffer first n) o
  rw [Nat.zero_add] at read
  rw [read, bufferSlice, List.getD_eq_getElem?_getD, List.getElem?_take_of_lt h, List.getElem?_drop, ← List.getD_eq_getElem?_getD]
  rfl

/-! ## The cassette of a buffer (R640) -/

/-- The buffer has no iNES header, or one without a PRG bank. -/
def Malformed (buffer : List Byte) : Prop :=
  buffer.length < 16 ∨ buffer.take 4 ≠ inesMagic ∨ buffer.getD 4 0 = 0

/-- The header asks for a trainer, for four screens, or for a mapper. -/
def Unsupported (buffer : List Byte) : Prop :=
  (buffer.getD 6 0).getLsbD 2 = true ∨ (buffer.getD 6 0).getLsbD 3 = true ∨ headerMapper (buffer.getD 6 0) (buffer.getD 7 0) ≠ 0

/-- The buffer ends before its banks do. -/
abbrev Truncated (buffer : List Byte) : Prop :=
  buffer.length < imageSize (buffer.getD 4 0).toNat (buffer.getD 5 0).toNat

/-- The cassette with the bank counts, the mirroring and the banks that the header gives. -/
def cartOf (buffer : List Byte) : Cart :=
  { prg := Memory.ofBytes 0 (bufferSlice buffer 16 (16384 * (buffer.getD 4 0).toNat))
    prgBanks := (buffer.getD 4 0).toNat
    chr := Memory.ofBytes 0
      (bufferSlice buffer (16 + 16384 * (buffer.getD 4 0).toNat) (8192 * (buffer.getD 5 0).toNat))
    chrBanks := (buffer.getD 5 0).toNat
    mirroring := if (buffer.getD 6 0).getLsbD 0 then .vertical else .horizontal }

section
variable {buffer : List Byte}

theorem ofImage_malformed (bad : Malformed buffer) : Cart.ofImage buffer = .error .f8MalformedCartridge := by
  rw [Malformed, ← or_assoc] at bad
  obtain noHeader | noBank := bad
  · exact if_pos noHeader
  · rw [Cart.ofImage, bufferByte, noBank]
    exact ite_self _

section
variable (good : ¬Malformed buffer)
include good

/-- With a good header the rest is tested in the order of R640. -/
theorem ofImage_header : Cart.ofImage buffer =
    if (buffer.getD 6 0).getLsbD 2 then .error .f9UnsupportedCartridge
    else if (buffer.getD 6 0).getLsbD 3 then .error .f9UnsupportedCartridge
    else if headerMapper (buffer.getD 6 0) (buffer.getD 7 0) ≠ 0 then .error .f9UnsupportedCartridge
    else if Truncated buffer then .error .f8MalformedCartridge
    else .ok (cartOf buffer) := by
  rw [Malformed, ← or_assoc, not_or] at good
  obtain ⟨header, bank⟩ := good
  exact (if_neg header).trans (if_neg fun e => bank (toNat_eq_zero_iff.1 e))

theorem ofImage_unsupported (bad : Unsupported buffer) : Cart.ofImage buffer = .error .f9UnsupportedCartridge := by
  rw [ofImage_header good]
  obtain trainer | screens | mapper := bad
  · exact if_pos trainer
  · rw [if_pos screens]
    exact ite_self _
  · rw [if_pos mapper, ite_self, ite_self]

theorem ofImage_supported (supported : ¬Unsupported buffer) :
    Cart.ofImage buffer = if Truncated buffer then .error .f8MalformedCartridge else .ok (cartOf buffer) := by
  simp only [Unsupported, not_or] at supported
  obtain ⟨trainer, screens, mapper⟩ := supported
  rw [ofImage_header good, if_neg trainer, if_neg screens, if_neg mapper]

end

/-- Only a buffer with a good header and no fault is accepted, as its cassette. -/
theorem eq_cartOf_of_ofImage {c : Cart} (h : Cart.ofImage buffer = .ok c) : ¬Malformed buffer ∧ c = cartOf buffer := by
  by_cases bad : Malformed buffer
  · cases (ofImage_malformed bad).symm.trans h
  by_cases unsupported : Unsupported buffer
  · cases (ofImage_unsupported bad unsupported).symm.trans h
  rw [ofImage_supported bad unsupported] at h
  split at h
  · cases h
  · exact ⟨bad, (Except.ok.inj h).symm⟩

theorem cartOf_inv (good : ¬Malformed buffer) : (cartOf buffer).Inv where
  banks := Nat.pos_of_ne_zero fun e => good (.inr (.inr (toNat_eq_zero_iff.1 e)))
  prg := sized_bufferSlice buffer _ _
  chr := sized_bufferSlice buffer _ _

end

/-- Settles O50: the four outcomes in the order of R640, and an accepted buffer's cassette by its slices. -/
theorem cassetteRoundTrip : Obligations.CassetteRoundTrip := by
  refine ⟨fun buffer c h => ?accepted, fun buffer => ⟨ofImage_malformed, ofImage_unsupported, fun good supported short => ?truncated,
    fun good supported full => ?complete⟩⟩
  case accepted =>
    obtain ⟨good, rfl⟩ := eq_cartOf_of_ofImage h
    refine ⟨rfl, rfl, ?_, fun o ho => ?_, fun o ho => read_bufferSlice ho, cartOf_inv good⟩
    · rw [cartOf]
      split <;> simp_all
    · have inside : o < (cartOf buffer).prgSize := ho
      rw [Cart.readPrgRom, Nat.mod_eq_of_lt inside]
      exact read_bufferSlice ho
  case truncated => exact (ofImage_supported good supported).trans (if_pos short)
  case complete => exact ⟨cartOf buffer, (ofImage_supported good supported).trans (if_neg full)⟩

/-! ## PRG mirroring (R642, R643) -/

/-- Every address from 0x8000 up names a byte of PRG ROM. -/
theorem cellOf_prgRom {s : State} {a : Word} (lo : 0x8000 ≤ a.toNat) :
    cellOf s a = some (.prg ((a.toNat - 0x8000) % s.cart.prgSize)) := by
  rw [cellOf, if_neg (by omega), if_neg (by omega), if_neg (by omega)]

/-- With one bank the upper half names the bytes of the lower. -/
theorem cellOf_upperBank {s : State} {a : Word} (bank : s.cart.prgBanks = 1) (lo : 0x8000 ≤ a.toNat) (hi : a.toNat < 0xC000) :
    cellOf s (a + 0x4000) = cellOf s a := by
  have upper : (a + 0x4000).toNat = a.toNat + 0x4000 := by bv_omega
  have size : s.cart.prgSize = 0x4000 := by rw [Cart.prgSize, bank]
  have offset : (a.toNat + 0x4000 - 0x8000) % 0x4000 = (a.toNat - 0x8000) % 0x4000 := by omega
  rw [cellOf_prgRom lo, cellOf_prgRom (by omega), upper, size, offset]

/-- Settles O51: one bank is a half of the range, two are the whole of it. -/
theorem prgMirroring : Obligations.PrgMirroring := by
  refine ⟨fun s a bank lo hi => ?one, fun s a b banks ha hb same => ?two⟩
  case one =>
    have stored : storedByte s a = some (cellByte s (.prg ((a.toNat - 0x8000) % s.cart.prgSize))) := by
      rw [storedByte, cellOf_prgRom lo, Option.map_some]
    have mirror : storedByte s (a + 0x4000) = storedByte s a := by
      rw [storedByte, cellOf_upperBank bank lo hi, storedByte]
    exact ⟨mirror, _, busRead_stored stored, busRead_stored (mirror.trans stored)⟩
  case two =>
    have size : s.cart.prgSize = 0x8000 := by rw [Cart.prgSize, banks]
    rw [cellOf_prgRom ha, cellOf_prgRom hb, size] at same
    have offset := StoreCell.prg.inj (Option.some.inj same)
    have ha' := a.isLt
    have hb' := b.isLt
    exact BitVec.eq_of_toNat_eq (by omega)

end Sys2Proof.Machine
end

section
/-! SUPPORT. What a step counts and keeps (49_system_step.md R670, R672, R675): each part of a step leaves alone what the host set,
the parts before the catch-up count nothing, and the catch-up counts the step's cycles; the proofs of O59 and O60. -/

namespace Sys2Proof.Machine

/-! ## What no part of a step changes -/

/-- The buttons, the open parameters, and the shape of the cassette are the same (48_controllers_cassette.md R634). -/
structure HostKept (s t : State) : Prop where
  buttons0 : t.ctl.pad0.buttons = s.ctl.pad0.buttons
  buttons1 : t.ctl.pad1.buttons = s.ctl.pad1.buttons
  params : t.params = s.params
  prgBanks : t.cart.prgBanks = s.cart.prgBanks
  chrBanks : t.cart.chrBanks = s.cart.chrBanks
  mirroring : t.cart.mirroring = s.cart.mirroring

section
variable {s t u : State}

theorem HostKept.trans (h : HostKept s t) (k : HostKept t u) : HostKept s u :=
  ⟨k.buttons0.trans h.buttons0, k.buttons1.trans h.buttons1, k.params.trans h.params, k.prgBanks.trans h.prgBanks,
    k.chrBanks.trans h.chrBanks, k.mirroring.trans h.mirroring⟩

/-- With one cassette the buttons and the parameters are all there is to say. -/
theorem HostKept.ofCart (buttons0 : t.ctl.pad0.buttons = s.ctl.pad0.buttons) (buttons1 : t.ctl.pad1.buttons = s.ctl.pad1.buttons)
    (params : t.params = s.params) (cart : t.cart = s.cart) : HostKept s t :=
  ⟨buttons0, buttons1, params, by rw [cart], by rw [cart], by rw [cart]⟩

theorem ReadFrame.hostKept (h : ReadFrame s t) : HostKept s t :=
  .ofCart (by rw [h.pad0]) (by rw [h.pad1]) h.params h.cart

theorem WriteFrame.hostKept (h : WriteFrame s t) : HostKept s t :=
  ⟨h.buttons0, h.buttons1, h.params, by rw [h.cart], by rw [h.cart], by rw [h.cart]⟩

theorem PpuFrame.hostKept (h : PpuFrame s t) : HostKept s t :=
  .ofCart (by rw [h.ctl]) (by rw [h.ctl]) h.params h.cart

theorem ApuFrame.hostKept (h : ApuFrame s t) : HostKept s t :=
  .ofCart (by rw [h.pad0]) (by rw [h.pad1]) (by rw [h.state]) (by rw [h.state])

end

/-! ## The parts before the catch-up count nothing -/

/-- The host's settings are kept, no cycle is counted, and the PPU stays at its dot. -/
structure Uncounted (s t : State) : Prop where
  kept : HostKept s t
  emu : t.emu = s.emu
  position : t.ppu.position = s.ppu.position

section
variable {s t u : State}

theorem Uncounted.trans (h : Uncounted s t) (k : Uncounted t u) : Uncounted s u :=
  ⟨h.kept.trans k.kept, k.emu.trans h.emu, k.position.trans h.position⟩

theorem ReadFrame.uncounted (h : ReadFrame s t) : Uncounted s t :=
  ⟨h.hostKept, h.emu, by rw [h.ppu]; rfl⟩

theorem WriteFrame.uncounted (h : WriteFrame s t) : Uncounted s t :=
  ⟨h.hostKept, h.emu, by rw [h.ppu]; rfl⟩

theorem runDma_uncounted {n : Nat} (h : runDma s = .ok n t) : Uncounted s t ∧ t.cpu = s.cpu := by
  obtain ⟨state, ppu, buttons0, buttons1, -⟩ := runDma_frame h
  exact ⟨⟨.ofCart buttons0 buttons1 (by rw [state]) (by rw [state]), by rw [state], by rw [ppu]; rfl⟩, by rw [state]⟩

/-- An instruction counts nothing: its cycles are in `insCycles`, and BRK's entry charges none (60_exceptions.md R703). -/
theorem exec_uncounted {i : Instr} (h : exec i s = .next t) : Uncounted s t := by
  cases exec_effect h with
  | reads s1 hr ht =>
    refine hr.uncounted.trans ?_
    rw [ht]
    exact ⟨.ofCart rfl rfl rfl rfl, rfl, rfl⟩
  | store ea v s1 s2 hr hw ht =>
    refine (hr.uncounted.trans (busWrite_frame hw).uncounted).trans ?_
    rw [ht]
    exact ⟨.ofCart rfl rfl rfl rfl, rfl, rfl⟩
  | stack l ht =>
    rw [ht]
    exact ⟨.ofCart rfl rfl rfl rfl, rfl, rfl⟩

end

/-! ## What an instruction returns -/

section
variable {i : Instr} {s t : State}

/-- The outcome is a fault, or a next state that returns n cycles at least; it is no refusal. -/
def CostsAtLeast (n : Nat) (o : Host.Outcome State Fault Refusal) : Prop :=
  (∃ f, o = .fault f) ∨ ∃ t, o = .next t ∧ n ≤ t.insCycles

theorem costsAtLeast_next {n : Nat} (h : n ≤ t.insCycles) : CostsAtLeast n (.next t) := .inr ⟨t, rfl, h⟩

theorem costsAtLeast_outcome {α : Type} {n : Nat} (r : Res α) (h : ∀ t, r.outcome = .next t → n ≤ t.insCycles) :
    CostsAtLeast n r.outcome := by
  obtain ⟨a, t, rfl⟩ | ⟨f, rfl⟩ := Res.ok_or_fault r
  · exact costsAtLeast_next (h t rfl)
  · exact .inl ⟨f, rfl⟩

theorem finish_costs (i : Instr) (cross : Bool) (s : State) : i.row.baseCycles ≤ (finish i cross s).insCycles :=
  Nat.le_add_right _ _

/-- The jumps and the stack instructions take their base cycles. -/
theorem control_costs (hm : i.mnemonic ∈ [.pha, .php, .pla, .plp, .jsr, .rts, .rti, .brk, .jmp]) :
    CostsAtLeast i.row.baseCycles (exec i s) := by
  simp only [List.mem_cons, List.not_mem_nil, or_false] at hm
  rcases hm with hm | hm | hm | hm | hm | hm | hm | hm | hm
  · rw [(exec_of_pha hm).2]
    exact costsAtLeast_next (finish_costs i false _)
  · rw [(exec_of_php hm).2]
    exact costsAtLeast_next (finish_costs i false _)
  · rw [(exec_of_pla hm).2]
    exact costsAtLeast_next (finish_costs i false _)
  · rw [(exec_of_plp hm).2]
    exact costsAtLeast_next (finish_costs i false _)
  · obtain ⟨a, -, he⟩ := exec_of_jsr hm
    rw [he]
    exact costsAtLeast_next (Nat.le_refl _)
  · rw [(exec_of_rts hm).2]
    exact costsAtLeast_next (Nat.le_refl _)
  · rw [(exec_of_rti hm).2]
    exact costsAtLeast_next (Nat.le_refl _)
  · rw [(exec_of_brk hm).2, brkForm]
    split
    · exact costsAtLeast_next (finish_costs i false _)
    · exact costsAtLeast_next (Nat.le_refl _)
  · obtain ⟨a, -, he⟩ | ⟨p, -, he⟩ := exec_of_jmp hm <;> rw [he]
    · exact costsAtLeast_next (Nat.le_refl _)
    · refine costsAtLeast_outcome _ fun t ht => ?_
      obtain ⟨u, ht⟩ := Res.outcome_eq_next.1 ht
      obtain ⟨w, s1, -, ht⟩ := Res.bind_eq_ok.1 ht
      cases ht
      exact Nat.le_refl _

/-- An instruction faults or takes its row's base cycles at least (30_encoding.md R169). -/
theorem exec_costs (i : Instr) (s : State) : CostsAtLeast i.row.baseCycles (exec i s) := by
  cases execShape i with
  | read o ho he =>
    rw [he]
    refine costsAtLeast_outcome _ fun t ht => ?_
    obtain ⟨r, s1, -, rfl⟩ := runRead_next ht
    exact finish_costs i _ _
  | implied ho he =>
    rw [he]
    exact costsAtLeast_next (finish_costs i false _)
  | modify o ho he =>
    rw [he]
    refine costsAtLeast_outcome _ fun t ht => ?_
    obtain ⟨r, s1, s2, -, -, rfl⟩ := runModify_next ht
    exact finish_costs i _ _
  | store m ho he =>
    rw [he]
    refine costsAtLeast_outcome _ fun t ht => ?_
    obtain ⟨e, s2, -, -, rfl⟩ := runStore_next ht
    exact finish_costs i _ _
  | branch d ho he =>
    rw [he, runBranch]
    split
    · exact costsAtLeast_next ((Nat.le_add_right _ _).trans (Nat.le_add_right _ _))
    · exact costsAtLeast_next (finish_costs i false _)
  | control hm => exact control_costs hm
  | faults he => exact .inl ⟨_, he s⟩

theorem exec_baseCycles_le (h : exec i s = .next t) : i.row.baseCycles ≤ t.insCycles := by
  obtain ⟨f, hf⟩ | ⟨t', ht, le⟩ := exec_costs i s
  · cases hf.symm.trans h
  · cases ht.symm.trans h
    exact le

/-- No arm of the dispatch refuses its instruction. -/
theorem exec_ne_refused (i : Instr) (s : State) (r : Refusal) : exec i s ≠ .refused r := by
  intro h
  obtain ⟨f, hf⟩ | ⟨t, ht, -⟩ := exec_costs i s
  · cases hf.symm.trans h
  · cases ht.symm.trans h

/-- No instruction sets `in_nmi` (60_exceptions.md R706). -/
theorem exec_inNmi (h : exec i s = .next t) (inNmi : t.cpu.inNmi = true) : s.cpu.inNmi = true := by
  obtain ⟨-, -, -, -, -, -, -, -, -, written⟩ := registerWriters i s t h
  by_contra outside
  obtain ⟨-, cleared⟩ := written fun same => outside (same ▸ inNmi)
  cases cleared.symm.trans inNmi

end

/-! ## A completed step -/

/-- What a step of c cycles counts: the cycles, three dots each, one instruction; and the frame it reports is the one its dots
complete. -/
structure Counts (c : Nat) (s t : State) : Prop where
  cycles : t.emu.totalCycles = s.emu.totalCycles + c
  apuCycles : t.apu.cycle = s.apu.cycle + c
  position : t.ppu.position = (s.ppu.position + 3 * c) % 89342
  instr : t.emu.instrCount = s.emu.instrCount + 1
  frame : t.frameDone = true ↔ 89342 ≤ s.ppu.position + 3 * c

section
variable {s t : State}

/-- What is counted from where a part that counts nothing ends is counted from where it began. -/
theorem Uncounted.counts {u : State} {c : Nat} (h : Uncounted s t) (apu : t.apu.cycle = s.apu.cycle) (k : Counts c t u) :
    Counts c s u where
  cycles := h.emu ▸ k.cycles
  apuCycles := apu ▸ k.apuCycles
  position := h.position ▸ k.position
  instr := h.emu ▸ k.instr
  frame := h.position ▸ k.frame

/-- The catch-up counts the step's cycles, keeps the host's settings, and sets `in_nmi` by the PPU's NMI alone. -/
theorem caughtUp_counts {u : State} {dma : Nat} {frame : Bool} (hl : s.ppu.lines ≤ 261) (hd : s.ppu.dots ≤ 340)
    (hppu : ppuRun (3 * stepCycles dma s) false (countStep dma s) = .ok frame t) (hapu : apuRun (stepCycles dma s) t = .ok () u) :
    Counts (stepCycles dma s) s { u with frameDone := frame } ∧ HostKept s u ∧
      (u.cpu.inNmi = true → s.cpu.inNmi = true ∨ u.ppu.ctrl.getLsbD 7 = true) := by
  obtain ⟨fppu, -⟩ := ppuRun_frame hppu
  obtain ⟨fapu, -, apuCycles⟩ := apuRun_frame hapu
  obtain ⟨reports, -, -, position⟩ := ppuRun_position (s := countStep dma s) hl hd hppu
  have start : HostKept s (countStep dma s) := .ofCart rfl rfl rfl rfl
  have apuEmu : u.emu.totalCycles = t.emu.totalCycles ∧ u.emu.instrCount = t.emu.instrCount := by
    rw [fapu.emu]
    exact ⟨rfl, rfl⟩
  have apuPosition : u.ppu.position = t.ppu.position := by rw [fapu.ppu]; rfl
  refine ⟨{
      cycles := apuEmu.1.trans fppu.totalCycles
      apuCycles := apuCycles.trans (congrArg (fun a : Apu => a.cycle + stepCycles dma s) fppu.apu)
      position := apuPosition.trans position
      instr := apuEmu.2.trans fppu.instrCount
      frame := reports.trans (or_iff_right Bool.false_ne_true) },
    start.trans (fppu.hostKept.trans fapu.hostKept), fun inNmi => ?_⟩
  have cpu : u.cpu = t.cpu := by rw [fapu.state]
  have ctrl : u.ppu.ctrl = s.ppu.ctrl := by rw [fapu.ppu, fppu.ppu]; rfl
  rw [ctrl]
  exact fppu.inNmi (cpu ▸ inNmi)

/-- A step keeps the host's settings, counts at least its instruction's two cycles and the pending ones, and sets `in_nmi` by
the PPU's NMI alone (49_system_step.md R670, R672, R675; 60_exceptions.md R706). -/
theorem step_counts (k : s.Inv) (h : step s = .next t) :
    (∃ c, 2 + s.emu.pendingCycles ≤ c ∧ Counts c s t) ∧ HostKept s t ∧
      (t.cpu.inNmi = true → s.cpu.inNmi = true ∨ t.ppu.ctrl.getLsbD 7 = true) := by
  obtain ⟨dma, s1, i, s2, s3, frame, s4, s5, hdma, hfetch, hexec, hppu, hapu, rfl⟩ := step_next h
  obtain ⟨udma, dmaCpu⟩ := runDma_uncounted hdma
  obtain ⟨-, -, -, -, kdma⟩ := runDma_frame hdma
  have ffetch := fetch_frame hfetch
  have u : Uncounted s s3 := (udma.trans ffetch.uncounted).trans (exec_uncounted hexec)
  have k3 := exec_inv hexec (ffetch.inv (kdma k))
  obtain ⟨counts, kept, inNmi⟩ := caughtUp_counts (s := s3) k3.ppu.lines k3.ppu.dots hppu hapu
  have apu : s3.apu.cycle = s.apu.cycle := by
    have cycles3 : s3.apu.cycle = s3.emu.totalCycles := k3.cycles
    rw [cycles3, u.emu, k.cycles]
  refine ⟨⟨_, ?_, u.counts apu counts⟩, ?_, fun set => (inNmi set).imp_left fun before => ?_⟩
  · have base := (two_le_baseCycles i).trans (exec_baseCycles_le hexec)
    rw [stepCycles, u.emu]
    omega
  · exact u.kept.trans (kept.trans (.ofCart rfl rfl rfl rfl))
  · rw [← dmaCpu, ← ffetch.cpu]
    exact exec_inNmi hexec before

/-- Settles O59: what a completed step counts and keeps, part by part. -/
theorem stepAccounts : Obligations.StepAccounts := by
  intro s t k h
  obtain ⟨⟨c, atLeast, counts⟩, kept, inNmi⟩ := step_counts k h
  exact ⟨⟨c, atLeast, counts.cycles, counts.apuCycles, counts.position⟩, counts.instr, kept.buttons0, kept.buttons1, kept.params,
    kept.prgBanks, kept.chrBanks, kept.mirroring, inNmi⟩

/-! ## A frame completes (49_system_step.md R674) -/

theorem step_ne_refused (s : State) (r : Refusal) : step s ≠ .refused r := by
  unfold step
  split
  · nofun
  split
  · nofun
  split
  · nofun
  · rename_i refused
    exact absurd refused (exec_ne_refused _ _ _)
  · exact Res.outcome_ne_refused _ r

end

/-- The end of a whole-frame call: a state whose last step completed a frame, or a fault. -/
def EndsFrame (o : Host.Outcome State Fault Refusal) : Prop :=
  (∀ t, o = .next t → t.frameDone = true) ∧ ∀ r, o ≠ .refused r

theorem endsFrame_next {t : State} (h : t.frameDone = true) : EndsFrame (.next t) := by
  refine ⟨fun u e => ?_, fun r e => ?_⟩
  · cases e
    exact h
  · cases e

theorem endsFrame_fault (f : Fault) : EndsFrame (.fault f) := by
  refine ⟨fun u e => ?_, fun r e => ?_⟩ <;> cases e

/-- The samples handed out earlier in the call do not matter to its end. -/
theorem EndsFrame.afterSamples {o : Host.Outcome State Fault Refusal} (l : List Sample) (h : EndsFrame o) :
    EndsFrame (afterSamples l o) := by
  obtain ⟨done, unrefused⟩ := h
  cases o with
  | next t => exact endsFrame_next (t := t.afterSamples l) (done t rfl)
  | fault f => exact endsFrame_fault _
  | refused r => exact absurd rfl (unrefused r)

/-- Each step goes on six dots at least, so n steps are enough for the 6n dots or fewer that the frame still lacks. -/
theorem stepFrame_ends {n : Nat} {s : State} (k : s.Inv) (h : 89342 ≤ s.ppu.position + 6 * n) :
    ∃ o, stepFrame n s = some o ∧ EndsFrame o := by
  have inFrame := Ppu.position_lt k.ppu.lines k.ppu.dots
  induction n generalizing s with
  | zero => omega
  | succ n ih =>
    have k0 := k.setSamples []
    cases hs : step (s.setSamples []) with
    | fault f => exact ⟨_, stepFrame_faults hs, endsFrame_fault f⟩
    | refused r => exact absurd hs (step_ne_refused _ r)
    | next t =>
      cases hf : t.frameDone with
      | true => exact ⟨_, stepFrame_done hs hf, endsFrame_next hf⟩
      | false =>
        obtain ⟨⟨c, atLeast, counts⟩, -, -⟩ := step_counts k0 hs
        have kt := stepKeepsInvariant _ t k0 hs
        have inTime : ¬89342 ≤ s.ppu.position + 3 * c := fun done => Bool.false_ne_true (hf.symm.trans (counts.frame.2 done))
        have position : t.ppu.position = (s.ppu.position + 3 * c) % 89342 := counts.position
        obtain ⟨o, ho, ends⟩ := ih kt (by omega) (Ppu.position_lt kt.ppu.lines kt.ppu.dots)
        exact ⟨_, by rw [stepFrame_continues hs hf, ho, Option.map_some], ends.afterSamples t.samples⟩

/-- Settles O60: 14891 steps are 89346 dots or more, past the end of any frame. -/
theorem frameCompletes : Obligations.FrameCompletes := fun _ k => stepFrame_ends k (by omega)

end Sys2Proof.Machine
end

section
/-! SUPPORT. The fetch reads the instruction's own bytes at rising addresses (20_memory.md R103; 30_encoding.md R160, R174): the proof
of O1. -/

namespace Sys2Proof.Machine

section
variable {s t : State} {op b1 b2 : Byte}

theorem faults_decodeOp (op b1 b2 : Byte) : (decodeOp op b1 b2).faults = (decodeOp op 0 0).faults := by
  rw [Instr.faults, row_decodeOp, Instr.faults]

/-- An executable instruction's operand bytes are all fetched. -/
theorem fetchedOperands_executable (h : (decodeOp op b1 b2).faults = false) :
    fetchedOperands op = (decodeOp op b1 b2).length - 1 := by
  rw [fetchedOperands, ← faults_decodeOp op b1 b2, h, ← length_decodeOp op b1 b2]
  rfl

/-- A faulting row's operand bytes are not fetched (R677, 60_exceptions.md R701). -/
theorem fetchedOperands_faulting (h : (decodeOp op b1 b2).faults = true) : fetchedOperands op = 0 := by
  rw [fetchedOperands, ← faults_decodeOp op b1 b2, if_pos h]

theorem readBytes_succ {n : Nat} {a : Word} {b : Byte} {l : List Byte} (h : readBytes (n + 1) a s = .ok (b :: l) t) :
    ∃ u, busRead a s = .ok b u ∧ readBytes n (a + 1) u = .ok l t := by
  obtain ⟨b', u, hb, h⟩ := Res.bind_eq_ok.1 h
  obtain ⟨l', v, hl, h⟩ := Res.bind_eq_ok.1 h
  cases h
  exact ⟨u, hb, hl⟩

theorem readBytes_zero {a : Word} {l : List Byte} (h : readBytes 0 a s = .ok l t) : s = t := (Res.ok.inj h).2

/-- Where the bytes at PC are those of an executable instruction, that instruction is fetched. -/
theorem fetch_of_readBytes (executable : (decodeOp op b1 b2).faults = false)
    (h : readBytes (decodeOp op b1 b2).length s.cpu.pc s = .ok ([op, b1, b2].take (decodeOp op b1 b2).length) t) :
    fetch s = .ok (decodeOp op b1 b2) t := by
  have operands := fetchedOperands_executable executable
  have own {c1 c2 : Byte} := decodeOp_congr op b1 b2 (c1 := c1) (c2 := c2)
  rcases length_cases (decodeOp op b1 b2) with len | len | len <;> rw [len] at h operands own <;>
    obtain ⟨s1, h1, h⟩ := readBytes_succ h
  · obtain rfl := readBytes_zero h
    simp only [fetch, h1, Res.bind_ok, operands]
    exact congrArg (Res.ok · s1) (own rfl)
  · obtain ⟨s2, h2, h⟩ := readBytes_succ h
    obtain rfl := readBytes_zero h
    simp only [fetch, h1, Res.bind_ok, operands, (busRead_frame h1).cpu, h2]
    exact congrArg (Res.ok · s2) (own rfl)
  · obtain ⟨s2, h2, h⟩ := readBytes_succ h
    obtain ⟨s3, h3, h⟩ := readBytes_succ h
    obtain rfl := readBytes_zero h
    have second : s.cpu.pc + 1 + 1 = s.cpu.pc + 2 := add_assoc _ _ _
    rw [second] at h3
    simp only [fetch, h1, Res.bind_ok, operands, Nat.reduceSub, (busRead_frame h1).cpu, h2, (busRead_frame h2).cpu, h3]

/-- A faulting row is fetched by its opcode alone. -/
theorem fetch_faulting (faulting : (decodeOp op b1 b2).faults = true) (h : busRead s.cpu.pc s = .ok op t) :
    fetch s = .ok (decodeOp op 0 0) t := by
  simp only [fetch, h, Res.bind_ok, fetchedOperands_faulting faulting]

end

/-- Settles O1: what the decoder makes of the bytes at PC is what the fetch gives. -/
theorem stepRunsTheDecodedInstruction : Obligations.StepRunsTheDecodedInstruction := by
  refine ⟨fun s s1 s2 dma i bytes hdma hread hdecode executable => ?executable,
    fun s s1 s2 dma i op b1 b2 hdma hread hdecode faulting => ?faulting⟩
  case executable =>
    obtain ⟨hwf, hbytes⟩ := encodeOfDecode.1 bytes [] i hdecode
    obtain ⟨op, b1, b2, rfl⟩ := exists_decodeOp hwf
    rw [List.append_nil, encode_decodeOp] at hbytes
    rw [hbytes] at hread
    simp only [step, hdma, fetch_of_readBytes executable hread]
    cases exec (decodeOp op b1 b2) s2 <;> rfl
  case faulting =>
    have hi : i = decodeOp op b1 b2 := by
      have own := decode_take_append op b1 b2 ([op, b1, b2].drop (decodeOp op b1 b2).length)
      rw [List.take_append_drop] at own
      exact (Prod.mk.inj (Except.ok.inj (hdecode.symm.trans own))).1
    subst hi
    have faulting0 : (decodeOp op 0 0).faults = true := faults_decodeOp op b1 b2 ▸ faulting
    simp only [step, hdma, fetch_faulting faulting hread, exec_of_faults faulting0, runFault]

end Sys2Proof.Machine
end

section
/-! SUPPORT. Interrupt entry and return (60_exceptions.md R702, R703, R710): the three pushed bytes read back, in page 1 and in three
different slots; the proof of O56, and of O57, since the machine starts with a RESET entry. -/

namespace Sys2Proof.Machine

/-! ## The three bytes of an entry -/

section
variable {m : Memory} {sp b0 b1 b2 : Byte}

/-- The slots of three pushes differ, for SP wraps in page 1 (10_state.md R31). -/
theorem stackPointers_ne (sp : Byte) : sp - 1 ≠ sp ∧ sp - 2 ≠ sp ∧ sp - 2 ≠ sp - 1 := by
  refine ⟨?_, ?_, ?_⟩ <;> bv_omega

theorem stackIndex_ne {sp sp' : Byte} (h : sp' ≠ sp) : 0x100 + sp'.toNat ≠ 0x100 + sp.toNat :=
  fun e => h (BitVec.eq_of_toNat_eq (Nat.add_left_cancel e))

/-- Three pushed bytes are read back from their slots. -/
theorem read_pushes_three (w : Memory.wf m = true) :
    let m' := pushes [(sp, b0), (sp - 1, b1), (sp - 2, b2)] m
    Memory.read m' (0x100 + sp.toNat) = b0 ∧ Memory.read m' (0x100 + (sp - 1).toNat) = b1 ∧
      Memory.read m' (0x100 + (sp - 2).toNat) = b2 := by
  obtain ⟨h10, h20, h21⟩ := stackPointers_ne sp
  have w0 := Memory.wf_write (0x100 + sp.toNat) b0 w
  have w1 := Memory.wf_write (0x100 + (sp - 1).toNat) b1 w0
  refine ⟨?_, ?_, Memory.read_write_same _ b2 w1⟩
  · exact (Memory.read_write_other b2 (stackIndex_ne h20.symm)).trans
      ((Memory.read_write_other b1 (stackIndex_ne h10.symm)).trans (Memory.read_write_same _ b0 w))
  · exact (Memory.read_write_other b2 (stackIndex_ne h21.symm)).trans (Memory.read_write_same _ b1 w0)

theorem read_pushes_three_other {k : Nat} (h0 : k ≠ 0x100 + sp.toNat) (h1 : k ≠ 0x100 + (sp - 1).toNat)
    (h2 : k ≠ 0x100 + (sp - 2).toNat) :
    Memory.read (pushes [(sp, b0), (sp - 1, b1), (sp - 2, b2)] m) k = Memory.read m k :=
  read_pushes_other (by simpa only [List.map, List.forall_mem_cons] using ⟨h0, h1, h2, nofun⟩)

end

/-! ## The status byte (R36, R37) -/

/-- The flags set from a status byte are the flags that the byte was made of. -/
theorem setP_statusByte (c c' : Cpu) (b5 b4 : Bool) : Cpu.setP (c.statusByte b5 b4) c' =
    { c' with n := c.n, v := c.v, d := c.d, i := c.i, z := c.z, c := c.c } := by
  have bits : ∀ n v b5 b4 d i z c : Bool,
      let p := BitVec.ofBool n ++ BitVec.ofBool v ++ BitVec.ofBool b5 ++ BitVec.ofBool b4 ++ BitVec.ofBool d ++ BitVec.ofBool i ++
        BitVec.ofBool z ++ BitVec.ofBool c
      p.getLsbD 7 = n ∧ p.getLsbD 6 = v ∧ p.getLsbD 3 = d ∧ p.getLsbD 2 = i ∧ p.getLsbD 1 = z ∧ p.getLsbD 0 = c := by decide
  obtain ⟨hn, hv, hd, hi, hz, hc⟩ := bits c.n c.v b5 b4 c.d c.i c.z c.c
  unfold Cpu.setP Cpu.statusByte
  rw [hn, hv, hd, hi, hz, hc]

/-! ## Entry and return -/

/-- What an entry leaves of work RAM: three pushes from SP down. -/
theorem interrupt_wram (k : IntKind) (ret : Word) (s : State) : (interrupt k ret s).wram =
    pushes [(s.cpu.sp, hiByte ret), (s.cpu.sp - 1, loByte ret), (s.cpu.sp - 2, s.cpu.pushedP k.pushesB)] s.wram := by
  have sp2 : s.cpu.sp - 1 - 1 = s.cpu.sp - 2 := sub_sub _ _ _
  rw [interrupt_eq, sp2]

theorem interrupt_cpu (k : IntKind) (ret : Word) (s : State) : (interrupt k ret s).cpu =
    { s.cpu with sp := s.cpu.sp - 3, i := true, inNmi := s.cpu.inNmi || k.isNmi, pc := vectorTarget k s } := by
  have sp3 : s.cpu.sp - 1 - 1 - 1 = s.cpu.sp - 3 := by rw [sub_sub, sub_sub]; rfl
  rw [interrupt_eq, sp3]

theorem returnFromInterrupt_cpu (s : State) : (returnFromInterrupt s).cpu =
    { Cpu.setP (Memory.read s.wram (0x100 + (s.cpu.sp + 1).toNat)) s.cpu with
      sp := s.cpu.sp + 3
      pc := wordOf (Memory.read s.wram (0x100 + (s.cpu.sp + 2).toNat)) (Memory.read s.wram (0x100 + (s.cpu.sp + 3).toNat))
      inNmi := false } := by
  have sp2 : s.cpu.sp + 1 + 1 = s.cpu.sp + 2 := add_assoc _ _ _
  have sp3 : s.cpu.sp + 1 + 2 = s.cpu.sp + 3 := add_assoc _ _ _
  rw [returnFromInterrupt, afterPull_afterPull, pulledWord_eq, pulled_eq, afterPull_eq]
  simp only [State.mapCpu, Cpu.setP, sp2, sp3]

/-- A return at once after an entry restores the registers but PC, which is the return address, and clears `in_nmi` (R710). -/
theorem return_after_interrupt {s : State} (w : Memory.wf s.wram = true) (k : IntKind) (ret : Word) :
    (returnFromInterrupt (interrupt k ret s)).cpu = { s.cpu with pc := ret, inNmi := false } := by
  obtain ⟨high, low, status⟩ := read_pushes_three (sp := s.cpu.sp) (b0 := hiByte ret) (b1 := loByte ret)
    (b2 := s.cpu.pushedP k.pushesB) w
  have sp1 : s.cpu.sp - 3 + 1 = s.cpu.sp - 2 := by bv_omega
  have sp2 : s.cpu.sp - 3 + 2 = s.cpu.sp - 1 := by bv_omega
  have sp3 : s.cpu.sp - 3 + 3 = s.cpu.sp := by bv_omega
  rw [returnFromInterrupt_cpu, interrupt_wram, interrupt_cpu]
  dsimp only
  rw [sp1, sp2, sp3, high, low, status, Cpu.pushedP, setP_statusByte, wordOf_loByte_hiByte]

/-- The vector is two bytes of PRG ROM, the low byte first (R702). -/
theorem vectorTarget_eq (k : IntKind) (s : State) : vectorTarget k s =
    s.cart.readPrgRom (k.vector.toNat + 1 - 0x8000) ++ s.cart.readPrgRom (k.vector.toNat - 0x8000) := by
  cases k <;> rfl

/-- Settles O56: three pushes, the registers and the pending cycles, and a return that pulls the three bytes. -/
theorem interruptEntryAndReturn : Obligations.InterruptEntryAndReturn := by
  intro s k ret inv t vector prg
  have ht : t = _ := interrupt_eq k ret s
  have wram : t.wram = _ := interrupt_wram k ret s
  have isNmi : k.isNmi = (k == .nmi) := by cases k <;> rfl
  have pushesB : k.pushesB = (k == .brk) := by cases k <;> rfl
  have charged : k.entryCycles s.params = if k = .brk then 0 else s.params.intEntryCycles := by cases k <;> rfl
  obtain ⟨high, low, status⟩ := read_pushes_three (sp := s.cpu.sp) (b0 := hiByte ret) (b1 := loByte ret)
    (b2 := s.cpu.pushedP k.pushesB) inv.wram.1
  refine ⟨⟨?high, ?low, ?status⟩, ?cpu, ?frame, fun j h0 h1 h2 => ?other, return_after_interrupt inv.wram.1 k ret⟩
  case high => exact wram ▸ high
  case low => exact wram ▸ low
  case status =>
    rw [← pushesB]
    exact wram ▸ status
  case cpu =>
    rw [← isNmi]
    refine (interrupt_cpu k ret s).trans ?_
    rw [vectorTarget_eq]
    cases k <;> rfl
  case frame =>
    rw [← charged, ht]
  case other => rw [wram, read_pushes_three_other h0 h1 h2]

/-! ## The machine's start (70_reset_and_hazards.md R750, R751) -/

/-- The status byte that an entry but BRK's pushes: bit 5 set and bit 4 clear (10_state.md R36). -/
theorem pushedP_false (c : Cpu) : c.pushedP false =
    BitVec.ofBool c.n ++ BitVec.ofBool c.v ++ 0b10#2 ++ BitVec.ofBool c.d ++ BitVec.ofBool c.i ++ BitVec.ofBool c.z ++
      BitVec.ofBool c.c := by
  have bits54 : ∀ nv : BitVec 2, nv ++ BitVec.ofBool true ++ BitVec.ofBool false = nv ++ 0b10#2 := by decide
  exact congrArg (fun high : BitVec 4 => high ++ BitVec.ofBool c.d ++ BitVec.ofBool c.i ++ BitVec.ofBool c.z ++
    BitVec.ofBool c.c) (bits54 _)

theorem start_reset : State.reset = start Params.atReset Launch.zero Cart.blank := by
  rw [start, resetEntry, interrupt_eq]
  decide

theorem reset_inv : State.reset.Inv where
  ppu := ⟨Nat.zero_le _, Nat.zero_le _, rfl, ⟨rfl, rfl⟩, ⟨rfl, rfl⟩, ⟨rfl, rfl⟩, ⟨rfl, rfl⟩, ⟨rfl, rfl⟩⟩
  apu := ⟨by decide, by decide, by decide, by decide⟩
  cart := ⟨by decide, ⟨rfl, rfl⟩, ⟨rfl, rfl⟩⟩
  wram := ⟨rfl, rfl⟩
  prgRam := ⟨rfl, rfl⟩
  index0 := Nat.zero_le _
  index1 := Nat.zero_le _
  cycles := rfl
  insCycles := rfl
  sampleLow := by decide
  sampleHigh := by decide

/-- Settles O57: the RESET entry over the power-on values, which it leaves alone but for the CPU, three bytes and the pending
cycles. -/
theorem powerOnReset : Obligations.PowerOnReset := by
  refine ⟨fun p l c => ?_, fun p l buffer => ⟨fun c h => initializeFrom_ok.2 ⟨c, h, rfl⟩, fun f h => ?fault⟩, start_reset, reset_inv⟩
  case fault => rw [initializeFrom, h]
  intro t prg
  have ht : t = _ := interrupt_eq .reset l.pc (powerOn p l c)
  have wram : t.wram = _ := interrupt_wram .reset l.pc (powerOn p l c)
  have cpu : t.cpu = _ := interrupt_cpu .reset l.pc (powerOn p l c)
  refine ⟨?cpu, ?emu, rfl, rfl, fun k h0 h1 h2 => ?other, fun w => ?pushed, rfl, rfl, rfl, rfl, rfl⟩
  case cpu =>
    rw [cpu, vectorTarget_eq]
    rfl
  case emu =>
    have pending : 0 + p.intEntryCycles = p.intEntryCycles := Nat.zero_add _
    rw [ht, ← pending]
    rfl
  case other => rw [wram]; exact read_pushes_three_other h0 h1 h2
  case pushed =>
    obtain ⟨high, low, status⟩ := read_pushes_three (sp := l.sp) (b0 := hiByte l.pc) (b1 := loByte l.pc)
      (b2 := (powerOn p l c).cpu.pushedP false) w
    refine ⟨wram ▸ high, wram ▸ low, ?_⟩
    rw [wram]
    exact status.trans (pushedP_false _)

end Sys2Proof.Machine
end
